-- ==== Sys2Proof/Word.lean ====
section
/-! DEFINITION. The widths of the block's data: bytes, 16-bit angles, and a Reading (spec/00_scope.md R6, R7;
spec/10_state.md R12). -/

namespace Sys2Proof

/-- A byte, bit 7 the most significant (R6 `BYTE_W`, R7). -/
abbrev Byte := BitVec 8

/-- An angle field or an encoder operand, 16 bits, unsigned (R6 `FIELD_W`, R12). All 16 bits count: nothing masks to the
12 bits of the meaningful domain (R81, R92). -/
abbrev Angle := BitVec 16

/-- A Reading: a pair of 16-bit values, `a1` of the first sensor channel, `a2` of the second (R12). -/
structure Reading where
  a1 : Angle
  a2 : Angle
  deriving DecidableEq, Repr

end Sys2Proof
end

