-- ==== Sys2Proof/Config.lean ====
section
/-! DEFINITION. The fixed parameters of spec/00_scope.md R6, each named once (93_implementation_defined.md U5), and the one
open parameter, the width of the discard counter (U7). The block leaves no value open that a step computes with, so there is
no free value here (INVENTORY.md, "What the manual leaves open"). -/

namespace Sys2Proof

/-- First byte of every frame (R6 `START`). UNVERIFIED against the repository: log 17. -/
def START : Byte := 0xAA

/-- Last byte of every frame (R6 `END`). UNVERIFIED against the repository: log 17. -/
def END : Byte := 0x55

/-- Length of every frame in bytes (R6 `FRAME_LEN`). -/
def frameLen : Nat := 7

/-- Angle fields per frame (R6 `N_ANGLES`). -/
def nAngles : Nat := 2

/-- Most bytes the accumulation buffer holds between two steps (R6 `ACC_CAP`, R13). -/
def accCap : Nat := 5

/-- Top of the meaningful domain of an angle (R6 `ANGLE_MAX`); the block does not enforce it (R81, R92). -/
def angleMax : Nat := 4095

/-- The parameter of R6 that is open: "one the model takes as an argument". DESIGN CHOICE log 10: it stands in State, where no
operation changes it, so that a statement over every state holds for every width. -/
structure Config where
  /-- `DISCARD_W`, a positive integer (U7). -/
  discardW : Nat
  deriving DecidableEq, Repr

/-- `DISCARD_W` at the spec's default (R6). -/
def Config.standard : Config where
  discardW := 16

end Sys2Proof
end

