-- ==== Sys2Proof/Machine/Operands.lean ====
section
/-! DEFINITION. Operand forms: slicing and joining of 16-bit angles (spec/00_scope.md R7, spec/30_encoding.md R52, R53), the
56-bit flattening of seven bytes (R50), and the fields of the frame pattern (R51). -/

namespace Sys2Proof.Machine

/-- `hi8(a) = a[15:8]` (R7). -/
def hi8 (a : Angle) : Byte := a.extractLsb' 8 8

/-- `lo8(a) = a[7:0]` (R7). -/
def lo8 (a : Angle) : Byte := a.extractLsb' 0 8

/-- `cat16(h, l) = (zext_16(h) << 8) | zext_16(l)` (R7, R53). -/
def cat16 (h l : Byte) : Angle := (h.setWidth 16 <<< 8) ||| l.setWidth 16

/-- Byte `i` of a 56-bit word in wire order: byte 0 is bits 55:48, byte 6 is bits 7:0 (R50). -/
def wireByte (w : BitVec 56) (i : Nat) : Byte := w.extractLsb' (48 - 8 * i) 8

/-- The seven bytes of a 56-bit word, first on the wire first (R50). -/
def wireBytes (w : BitVec 56) : List Byte :=
  [wireByte w 0, wireByte w 1, wireByte w 2, wireByte w 3, wireByte w 4, wireByte w 5, wireByte w 6]

/-- Seven bytes as one 56-bit word, byte 0 in bits 55:48 (R50; the `tx_frame` port of R21). -/
def flatten7 (b0 b1 b2 b3 b4 b5 b6 : Byte) : BitVec 56 :=
  b0 ++ b1 ++ b2 ++ b3 ++ b4 ++ b5 ++ b6

/-- The bits the FRAME row fixes (R51 and opcode_table.json "mask"). -/
def frameMask : BitVec 56 := 0xFF0000000000FF

/-- Their values (R51 and opcode_table.json "match"). -/
def frameMatch : BitVec 56 := 0xAA000000000055

/-- An angle lies in the meaningful domain, 0 to 4095 (R12). A consumer may ask; the block never does (R58, R92). -/
def inDomain (a : Angle) : Bool := a.toNat ≤ angleMax

end Sys2Proof.Machine
end

