-- ==== Sys2Proof/Machine/Ports.lean ====
section
/-! DEFINITION. How the environment asks the block for something: the input ports of spec/10_state.md R21, or a call of a
function or pseudo-operation that has no selection code (spec/30_encoding.md R55, R62, R63). -/

namespace Sys2Proof.Machine

/-- What a request is, after the "format" column of spec/opcode_table.json (R63). The rows of format "function" and "pseudo"
have no selection code, so the model names them: they are "called as functions by a model" (R56). DESIGN CHOICE log 5. -/
inductive Format where
  /-- one presentation of the input ports, format "sel3": `RST`, `ENC`, `RXB`, `NOP` -/
  | sel3
  /-- a call of `CHK`, format "function" -/
  | chk
  /-- a call of `VAL`, format "function" -/
  | val
  /-- a call of `DEC`, format "function" -/
  | dec
  /-- a wire word, format "frame56" -/
  | frame56
  /-- a burst, format "pseudo" -/
  | rxs
  /-- a loop-back, format "pseudo" -/
  | loop
  deriving DecidableEq, Repr

/-- One request, as bytes. For `sel3` the six bytes are sel (bits 2:0 of the first byte; bits 7:3 do not exist and are 0),
enc_a1 high and low, enc_a2 high and low, rx_byte: every input port of R21. For the others the bytes are the operand of the
table's row, first on the wire first. DESIGN CHOICE log 3. -/
structure Request where
  fmt : Format
  bytes : List Byte
  deriving DecidableEq, Repr

/-- Why bytes are no request. No value of the ports and no operand of the right width is ever rejected (R56, R130). -/
inductive DecodeError where
  /-- the number of bytes is not the width of this format's ports or operand -/
  | wrongWidth
  /-- a selection value that does not fit the three bits of `sel` (R56) -/
  | selTooWide
  /-- a burst with no byte (R62) -/
  | emptyBurst
  deriving DecidableEq, Repr

end Sys2Proof.Machine
end

