-- ==== Sys2Proof/Syntax.lean ====
section
/-! DEFINITION. The operations of spec/30_encoding.md R55 and R62 and the wire format row of R63: one constructor per row of
spec/opcode_table.json. -/

namespace Sys2Proof

/-- What a step can be asked to do. The spec calls these operations; the block has no instruction set (R1). -/
inductive Instr where
  /-- `FRAME`: a 56-bit wire word tried against the frame pattern of R51 (log 6). -/
  | frame (w : BitVec 56)
  /-- `CHK a1, a2` (R72). -/
  | chk (a1 a2 : Angle)
  /-- `ENC a1, a2` (R82). -/
  | enc (a1 a2 : Angle)
  /-- `VAL w0 … w6` (R91). -/
  | val (w0 w1 w2 w3 w4 w5 w6 : Byte)
  /-- `DEC f0 … f6` (R95). -/
  | dec (f0 f1 f2 f3 f4 f5 f6 : Byte)
  /-- `RXB b` (R100). -/
  | rxb (b : Byte)
  /-- `RST` (R160). -/
  | rst
  /-- `NOP` (R163). -/
  | nop
  /-- `RXS b0 … bn`, a pseudo-operation (R62, R108). -/
  | rxs (bs : List Byte)
  /-- `LOOP a1, a2`, a pseudo-operation (R62, R114). -/
  | loop (a1 a2 : Angle)
  deriving DecidableEq, Repr

end Sys2Proof
end

