-- ==== Sys2Proof/Machine/State.lean ====
section
/-! DEFINITION. The state of the block (spec/10_state.md R10), the outputs of its steps (R17, R20), the streams the model
records (spec/20_memory.md R32 to R34), and the requests of the environment. Plain data. -/

namespace Sys2Proof.Machine

/-- `rx_state` at rest (R15). VALIDATE is transient and never a value between two steps (R101). -/
inductive RxState where
  | seekStart
  | collecting
  deriving DecidableEq, Repr

/-- The framer: the pair `(rx_state, acc)` (R10, R13, R16). -/
structure Framer where
  rxState : RxState
  acc : List Byte
  deriving DecidableEq, Repr

/-- What one framer step tells the environment (R61 writes `-`, `emit (a1, a2)`, `discard`; R107: at most one per byte). -/
inductive Event where
  | quiet
  | emit (r : Reading)
  | discard
  deriving DecidableEq, Repr

/-- The answer of a query, which changes no state (R55, R61). -/
inductive Result where
  /-- the checksum byte of `CHK` (R72) -/
  | byte (b : Byte)
  /-- the optional Reading of `VAL`, `DEC` and the FRAME row (R91, R95, R51) -/
  | reading (r : Option Reading)
  deriving DecidableEq, Repr

/-- The outputs of one step (R17, R20, R21). A data port is defined only in a step whose flag is 1, so flag and data are one
optional value and there is nothing to read in any other step (U2, log 9). -/
structure StepOut where
  /-- `tx_valid` with `tx_frame[0..6]` -/
  tx : Option (List Byte)
  /-- `rd_valid` with `rd_a1`, `rd_a2` -/
  rd : Option Reading
  /-- `rx_discard` -/
  rxDiscard : Bool
  /-- the answer of a query -/
  result : Option Result
  deriving DecidableEq, Repr

/-- The whole state. -/
structure State where
  /-- `DISCARD_W`, fixed for the machine (R6); log 10 -/
  cfg : Config
  /-- `rx_state` (R15) -/
  rxState : RxState
  /-- the accumulation buffer: the bytes after START of the window being collected (R13) -/
  acc : List Byte
  /-- `discard_cnt` (R19) -/
  discardCnt : Nat
  /-- the outputs of the steps of the operation just executed, oldest first; one step, but for the pseudo-operations (log 8, log 9) -/
  outs : List StepOut
  /-- the part of `RXSTREAM` consumed so far (R32); log 16 -/
  rxs : List Byte
  /-- `TXS` (R33) -/
  txs : List Byte
  /-- `RDS` (R34) -/
  rds : List Reading
  /-- what the environment will ask for, oldest first (R166); log 1 -/
  pending : List Request
  deriving DecidableEq, Repr

/-- No step of the block faults: "a model gives every operation a next state in every state; it has no fault outcome" (R130).
Nobody raises one, which is exact. -/
inductive Fault where
  deriving DecidableEq, Repr

/-- Why a step has no meaning. -/
inductive Refusal where
  /-- an operation that has no meaning yet; raised by an arm of `exec` only, of which there is none left; safe -/
  | notModelled (mnemonic : String)
  /-- raised by `step` when the request at the head of `pending` is no value of the ports and no operand of the right width
  (R130); no operation of the spec is refused by it; safe (log 3, log 15) -/
  | noSuchRequest (why : DecodeError)
  deriving DecidableEq, Repr

/-- The state right after `RST` at the beginning of a run, for any width of the counter (R25). The histories are empty because
the run begins here, and nothing has been asked for yet (DESIGN CHOICE log 12, log 1). -/
def State.resetWith (c : Config) : State where
  cfg := c
  rxState := .seekStart
  acc := []
  discardCnt := 0
  outs := [⟨none, none, false, none⟩]
  rxs := []
  txs := []
  rds := []
  pending := []

/-- The state right after reset, with `DISCARD_W` at its default (R6, R25). -/
def State.reset : State := State.resetWith Config.standard

end Sys2Proof.Machine
end

