-- ==== Sys2Proof/Machine/Flags.lean ====
section
/-! DEFINITION. The three event flags of spec/10_state.md R17, the output ports of R21, the codings of R18, and the outputs of one
step for each kind of step. A flag is 1 only in a step in which its event happens and 0 in every other step. -/

namespace Sys2Proof.Machine

/-- `tx_valid`: `tx_frame` carries a new frame in this step (R17). -/
def txValid (o : StepOut) : Bool := o.tx.isSome

/-- `rd_valid`: `rd_a1`, `rd_a2` carry a validated Reading in this step (R17). -/
def rdValid (o : StepOut) : Bool := o.rd.isSome

/-- `rx_discard`: one window was dropped in this step (R17). -/
def rxDiscardFlag (o : StepOut) : Bool := o.rxDiscard

/-- `tx_frame` flattened to 56 bits, byte 0 in bits 55:48 (R21); nothing to read in a step without `tx_valid` (R20). -/
def txFramePort (o : StepOut) : Option (BitVec 56) :=
  match o.tx with
  | some [b0, b1, b2, b3, b4, b5, b6] => some (flatten7 b0 b1 b2 b3 b4 b5 b6)
  | _ => none

/-- `rd_a1` (R21); nothing to read in a step without `rd_valid` (R20). -/
def rdA1Port (o : StepOut) : Option Angle := o.rd.map Reading.a1

/-- `rd_a2` (R21); nothing to read in a step without `rd_valid` (R20). -/
def rdA2Port (o : StepOut) : Option Angle := o.rd.map Reading.a2

/-- The `discard_cnt` port, `DISCARD_W` bits (R18, R21). -/
def discardCntPort (s : State) : BitVec s.cfg.discardW := BitVec.ofNat s.cfg.discardW s.discardCnt

/-- `rx_state` as one bit, 0 for `SEEK_START`, 1 for `COLLECTING`; no port shows it (R18). -/
def rxStateBit : RxState → BitVec 1
  | .seekStart => 0
  | .collecting => 1

/-- The fill count as three bits; no port shows it (R13, R18). -/
def fillCount (s : State) : BitVec 3 := BitVec.ofNat 3 s.acc.length

/-- A step without event: all flags 0 (R17, R160, R163). -/
def quietOut : StepOut := ⟨none, none, false, none⟩

/-- The step of an `ENC`: `tx_valid = 1`, `tx_frame = f` (R82). The receive flags are 0: `ENC` sets neither and R17 makes a flag 0
in every step without its event. DEDUCED log 14. -/
def frameOut (f : List Byte) : StepOut := ⟨some f, none, false, none⟩

/-- The step of a query: no flag, an answer (R72, R91). -/
def answerOut (r : Result) : StepOut := ⟨none, none, false, some r⟩

/-- The step of an `RXB`: `rd_valid` with the Reading on an emit, `rx_discard` on a discard, never both (R17, R100). -/
def eventOut : Event → StepOut
  | .quiet => quietOut
  | .emit r => ⟨none, some r, false, none⟩
  | .discard => ⟨none, none, true, none⟩

end Sys2Proof.Machine
end

