-- ==== Sys2Proof/Machine/Ops.lean ====
section
/-! DEFINITION. The shared operations: checksum, frame, window test, re-seek and framer step as functions of data
(spec/40_checksum.md, 41_encode.md, 42_validate.md, 43_framer.md), and the updates of the state they lead to
(the primitives `TxPut`, `Emit`, `Discard` of spec/00_scope.md R8).

There is no exception to take and none to return from (spec/60_exceptions.md R130, R136). What stands in for trap entry is the
discard (R135): `framerStep`'s last case, with `seek` for the re-seek and `State.countDiscard` for the record. -/

namespace Sys2Proof.Machine

/-! ## Checksum -/

/-- `Checksum(a1, a2)`, folded in the order of the source: angle1 high, angle1 low, angle2 high, angle2 low (R70, R73). -/
def checksum (a1 a2 : Angle) : Byte := hi8 a1 ^^^ lo8 a1 ^^^ hi8 a2 ^^^ lo8 a2

/-- `Chk4(b1, b2, b3, b4)`: the same on bytes as they stand in a frame (R71). -/
def chk4 (b1 b2 b3 b4 : Byte) : Byte := b1 ^^^ b2 ^^^ b3 ^^^ b4

/-! ## Frame -/

/-- `Encode(a1, a2)`, total on all operand pairs, no masking (R80, R81). -/
def encodeFrame (a1 a2 : Angle) : List Byte :=
  [START, hi8 a1, lo8 a1, hi8 a2, lo8 a2, checksum a1 a2, END]

/-- A 56-bit word has the markers of a frame (R51). -/
def hasMarkers (w : BitVec 56) : Bool := w &&& frameMask == frameMatch

/-- The constraint of the FRAME row: `c = h XOR l XOR H XOR L` (R51). -/
def checksumField (w : BitVec 56) : Bool :=
  wireByte w 5 == chk4 (wireByte w 1) (wireByte w 2) (wireByte w 3) (wireByte w 4)

/-- "Test the mask and match, test the constraint, slice the fields" (R63). -/
def frameFields (w : BitVec 56) : Option Reading :=
  if hasMarkers w && checksumField w then
    some ⟨cat16 (wireByte w 1) (wireByte w 2), cat16 (wireByte w 3) (wireByte w 4)⟩
  else none

/-! ## Window test -/

/-- `Validate(win)` for a sequence of exactly seven bytes (R90): START, END and checksum, no range check (R92). A sequence of
another length is no window. -/
def validate : List Byte → Option Reading
  | [w0, w1, w2, w3, w4, w5, w6] =>
    if w0 = START ∧ w6 = END ∧ w5 = chk4 w1 w2 w3 w4 then some ⟨cat16 w1 w2, cat16 w3 w4⟩ else none
  | _ => none

/-- Labels for why seven bytes are rejected; no port shows them (R93). -/
inductive RejectCause where
  | endMismatch
  | chkMismatch
  | both
  /-- outside the framer only -/
  | startMismatch
  deriving DecidableEq, Repr

/-- The label of R93 for a rejected window, none for an accepted one. A wrong START is `START_MISMATCH` whatever the other
tests say. DEDUCED log 20. -/
def rejectCause : List Byte → Option RejectCause
  | [w0, w1, w2, w3, w4, w5, w6] =>
    if w0 ≠ START then some .startMismatch
    else if w6 = END then
      if w5 = chk4 w1 w2 w3 w4 then none else some .chkMismatch
    else if w5 = chk4 w1 w2 w3 w4 then some .endMismatch
    else some .both
  | _ => none

/-! ## Framer -/

/-- The framer after reset and after a success (R25, R104). -/
def Framer.idle : Framer := ⟨.seekStart, []⟩

/-- `Seek(bs)`: the first START of `bs` opens a window and the bytes after it are collected; none, and the framer seeks (R106). -/
def seek : List Byte → Framer
  | [] => Framer.idle
  | b :: bs => if b = START then ⟨.collecting, bs⟩ else seek bs

/-- The window completed by `b`: START, the five collected bytes, `b` (R103). -/
def window (acc : List Byte) (b : Byte) : List Byte := START :: acc ++ [b]

/-- VALIDATE (R101): the window is complete. Success consumes all seven bytes (R104); failure gives up the failed START only and
re-seeks over `win[1..6]` (R105, R106). -/
def validateStep (win : List Byte) : Framer × Event :=
  match validate win with
  | some r => (Framer.idle, .emit r)
  | none => (seek win.tail, .discard)

/-- One received byte (R100, R102, R103, R109). -/
def framerStep (f : Framer) (b : Byte) : Framer × Event :=
  match f.rxState with
  | .seekStart => if b = START then (⟨.collecting, []⟩, .quiet) else (f, .quiet)
  | .collecting =>
    if f.acc.length < accCap then (⟨.collecting, f.acc ++ [b]⟩, .quiet)
    else validateStep (window f.acc b)

/-! ## Updates of the state -/

/-- An operation begins: the outputs of the one before are gone (R20). -/
def State.begin (s : State) : State := { s with outs := [] }

/-- The outputs of one step. -/
def State.putOut (s : State) (o : StepOut) : State := { s with outs := s.outs ++ [o] }

/-- `TxPut(f)`: the bytes of a frame, in index order, at the end of `TXS` (R8, R33). -/
def State.txPut (s : State) (f : List Byte) : State := { s with txs := s.txs ++ f }

/-- `Emit(a1, a2)`: one Reading at the end of `RDS` (R8, R34). -/
def State.emitReading (s : State) (r : Reading) : State := { s with rds := s.rds ++ [r] }

/-- `discard_cnt` plus one, modulo `2^DISCARD_W` (R19). -/
def bumpDiscard (c : Config) (n : Nat) : Nat := (n + 1) % 2 ^ c.discardW

/-- `Discard()`: count a failed validation (R8, R19, R132). -/
def State.countDiscard (s : State) : State := { s with discardCnt := bumpDiscard s.cfg s.discardCnt }

/-- The framer of a state. -/
def State.framer (s : State) : Framer := ⟨s.rxState, s.acc⟩

/-- Write `(rx_state, acc)`. -/
def State.setFramer (s : State) (f : Framer) : State := { s with rxState := f.rxState, acc := f.acc }

/-- One element of `RXSTREAM` is consumed (R32). -/
def State.consume (s : State) (b : Byte) : State := { s with rxs := s.rxs ++ [b] }

/-- What the environment will still ask for. -/
def State.setPending (s : State) (p : List Request) : State := { s with pending := p }

/-- The record an event leaves besides the framer's own state (R104, R105, R132). -/
def State.recordEvent (s : State) : Event → State
  | .quiet => s
  | .emit r => s.emitReading r
  | .discard => s.countDiscard

/-! ## Steps -/

/-- A step that only shows outputs. -/
def outStep (o : StepOut) (s : State) : State := s.putOut o

/-- One `ENC` step (R82). -/
def encStep (a1 a2 : Angle) (s : State) : State :=
  (s.txPut (encodeFrame a1 a2)).putOut (frameOut (encodeFrame a1 a2))

/-- One `RXB` step (R100). -/
def rxbStep (b : Byte) (s : State) : State :=
  let (f, e) := framerStep s.framer b
  (((s.consume b).setFramer f).recordEvent e).putOut (eventOut e)

/-- A run of `RXB` steps (R62, R108). -/
def rxsSteps (bs : List Byte) (s : State) : State := bs.foldl (fun t b => rxbStep b t) s

/-- One `RST` step: the triple of R10 to its reset values, no event, the histories stay (R25, R160). -/
def rstStep (s : State) : State :=
  { s.setFramer Framer.idle with discardCnt := 0 }.putOut quietOut

end Sys2Proof.Machine
end

