-- ==== Sys2Proof/Machine/Codec.lean ====
section
/-! DEFINITION. The meanings of the checksum, encoder and validator operations: `CHK`, `ENC`, `VAL`, `DEC` (spec/40_checksum.md,
41_encode.md, 42_validate.md), and of the wire word FRAME (spec/30_encoding.md R50, R51, R63). None of them reads or writes the
receive state. -/

namespace Sys2Proof.Machine

/-- `CHK a1, a2`: `result <- Checksum(a1, a2)` (R72). -/
def execChk (a1 a2 : Angle) (s : State) : Host.Outcome State Fault Refusal :=
  .next (outStep (answerOut (.byte (checksum a1 a2))) s.begin)

/-- `ENC a1, a2`: the frame on `tx_frame` and at the end of `TXS` (R82). -/
def execEnc (a1 a2 : Angle) (s : State) : Host.Outcome State Fault Refusal :=
  .next (encStep a1 a2 s.begin)

/-- `VAL w0 … w6`: `result <- Validate([w0, …, w6])` (R91). -/
def execVal (w0 w1 w2 w3 w4 w5 w6 : Byte) (s : State) : Host.Outcome State Fault Refusal :=
  .next (outStep (answerOut (.reading (validate [w0, w1, w2, w3, w4, w5, w6]))) s.begin)

/-- `DEC f0 … f6`: the same function as `VAL` (R95). -/
def execDec (f0 f1 f2 f3 f4 f5 f6 : Byte) (s : State) : Host.Outcome State Fault Refusal :=
  .next (outStep (answerOut (.reading (validate [f0, f1, f2, f3, f4, f5, f6]))) s.begin)

/-- The FRAME row, "the wire format, not an operation": the answer is the Reading a frame word carries, none for a word that is
no frame (R51, R53, R63). It changes no state, since R55's operations are all that do. DESIGN CHOICE log 6. -/
def execFrame (w : BitVec 56) (s : State) : Host.Outcome State Fault Refusal :=
  .next (outStep (answerOut (.reading (frameFields w))) s.begin)

end Sys2Proof.Machine
end

