-- ==== Sys2Proof/Machine/Control.lean ====
section
/-! DEFINITION. The meanings of `RST` and `NOP`, the whole class of system operations (spec/70_reset_and_hazards.md R160, R163,
R164). -/

namespace Sys2Proof.Machine

/-- `RST` (R160). -/
def execRst (s : State) : Host.Outcome State Fault Refusal :=
  .next (rstStep s.begin)

/-- `NOP`: nothing; the three flags are 0 (R163). -/
def execNop (s : State) : Host.Outcome State Fault Refusal :=
  .next (outStep quietOut s.begin)

end Sys2Proof.Machine
end

