-- ==== Sys2Proof/Machine/Receive.lean ====
section
/-! DEFINITION. The meanings of the framer operations `RXB` and `RXS` and of the loop-back `LOOP` (spec/43_framer.md,
spec/30_encoding.md R62). -/

namespace Sys2Proof.Machine

/-- `RXB b` (R100). -/
def execRxb (b : Byte) (s : State) : Host.Outcome State Fault Refusal :=
  .next (rxbStep b s.begin)

/-- `RXS b0 … bn`: `RXB b0`, then … then `RXB bn`; the outputs of all steps are kept, in stream order (R62, R108, log 8). An empty
burst "is no operation at all" (R62, log 15). -/
def execRxs (bs : List Byte) (s : State) : Host.Outcome State Fault Refusal :=
  .next (rxsSteps bs s.begin)

/-- `LOOP a1, a2`: `ENC a1, a2`, then `RXS` of the seven bytes of its frame (R62, R114). -/
def execLoop (a1 a2 : Angle) (s : State) : Host.Outcome State Fault Refusal :=
  .next (rxsSteps (encodeFrame a1 a2) (encStep a1 a2 s.begin))

end Sys2Proof.Machine
end

