-- ==== Sys2Proof/Machine/Dispatch.lean ====
section
/-! DEFINITION. One arm per operation (spec/30_encoding.md R55, R62, R63). -/

namespace Sys2Proof.Machine

def exec (i : Instr) (s : State) : Host.Outcome State Fault Refusal :=
  match i with
  | .frame w => Sys2Proof.Machine.execFrame w s
  | .chk a1 a2 => Sys2Proof.Machine.execChk a1 a2 s
  | .enc a1 a2 => Sys2Proof.Machine.execEnc a1 a2 s
  | .val w0 w1 w2 w3 w4 w5 w6 => Sys2Proof.Machine.execVal w0 w1 w2 w3 w4 w5 w6 s
  | .dec f0 f1 f2 f3 f4 f5 f6 => Sys2Proof.Machine.execDec f0 f1 f2 f3 f4 f5 f6 s
  | .rxb b => Sys2Proof.Machine.execRxb b s
  | .rst => Sys2Proof.Machine.execRst s
  | .nop => Sys2Proof.Machine.execNop s
  | .rxs bs => Sys2Proof.Machine.execRxs bs s
  | .loop a1 a2 => Sys2Proof.Machine.execLoop a1 a2 s

end Sys2Proof.Machine
end

