-- ==== Sys2Proof/WellFormed.lean ====
section
/-! DEFINITION. Well-formed operations. Operand widths are carried by the types of Instr, and every value of every operand is
allowed (spec/20_memory.md R39), so one check is left: a burst has at least one byte (spec/30_encoding.md R62). -/

namespace Sys2Proof

/-- "`RXS` with no byte is not allowed by the grammar; an empty burst is no operation at all" (R62). -/
def Instr.wellFormed : Instr → Bool
  | .frame _ => true
  | .chk _ _ => true
  | .enc _ _ => true
  | .val _ _ _ _ _ _ _ => true
  | .dec _ _ _ _ _ _ _ => true
  | .rxb _ => true
  | .rst => true
  | .nop => true
  | .rxs bs => !bs.isEmpty
  | .loop _ _ => true

end Sys2Proof
end

