-- ==== Sys2Proof/Decode.lean ====
section
/-! DEFINITION. From a request to the operation it asks for, total on any bytes and rejecting by name, and back
(spec/30_encoding.md R55, R56, R62, R63). -/

namespace Sys2Proof

open Machine

/-- What decoding gives: an operation and what the same request still asks for after it (only `sel = 011` asks for two,
R56), or the reason why the bytes are no request. -/
inductive Decoded where
  | ok (i : Instr) (rest : List Request)
  | bad (e : DecodeError)
  deriving DecidableEq, Repr

/-- A row of R56's table: `sel` agrees with `value` on the bits of `mask`. -/
def selMatches (sel mask value : BitVec 3) : Bool := sel &&& mask == value

/-- The input ports with a given `sel`, as a request. -/
def portRequest (sel : BitVec 3) (a1 a2 : Angle) (b : Byte) : Request :=
  ⟨.sel3, [sel.setWidth 8, hi8 a1, lo8 a1, hi8 a2, lo8 a2, b]⟩

/-- Selection by `sel = {rst, enc_req, rx_valid}` (R56): the rows `RST` 1xx, `ENC` 01x, `RXB` 0x1, `NOP` 000, `RST` before the
others (D21). `sel = 011` matches two rows: both happen, as two steps in either order (R41, R56); the model runs `ENC` now and
leaves the ports with `sel = 001` to the next step. DESIGN CHOICE log 4. -/
def decodeSel (sel : BitVec 3) (a1 a2 : Angle) (b : Byte) : Decoded :=
  if selMatches sel 0b100 0b100 then .ok .rst []
  else if selMatches sel 0b110 0b010 then
    if selMatches sel 0b101 0b001 then .ok (.enc a1 a2) [portRequest 0b001 a1 a2 b]
    else .ok (.enc a1 a2) []
  else if selMatches sel 0b101 0b001 then .ok (.rxb b) []
  else .ok .nop []

/-- One presentation of the input ports (R21). -/
def decodePorts : List Byte → Decoded
  | [s, a1h, a1l, a2h, a2l, b] =>
    if s.toNat < 8 then decodeSel (s.setWidth 3) (cat16 a1h a1l) (cat16 a2h a2l) b
    else .bad .selTooWide
  | _ => .bad .wrongWidth

/-- The operand word `a1 ++ a2` of 32 bits, first byte `hi8(a1)` (opcode_table.json, rows CHK and LOOP). -/
def decodeAngles (mk : Angle → Angle → Instr) : List Byte → Decoded
  | [a1h, a1l, a2h, a2l] => .ok (mk (cat16 a1h a1l) (cat16 a2h a2l)) []
  | _ => .bad .wrongWidth

/-- A seven-byte operand (R90, R95). -/
def decodeWindow (mk : Byte → Byte → Byte → Byte → Byte → Byte → Byte → Instr) : List Byte → Decoded
  | [w0, w1, w2, w3, w4, w5, w6] => .ok (mk w0 w1 w2 w3 w4 w5 w6) []
  | _ => .bad .wrongWidth

/-- The bytes of a burst, at least one (R62). -/
def decodeBurst : List Byte → Decoded
  | [] => .bad .emptyBurst
  | b :: bs => .ok (.rxs (b :: bs)) []

/-- The operation a request asks for. -/
def decode (r : Request) : Decoded :=
  match r.fmt with
  | .sel3 => decodePorts r.bytes
  | .chk => decodeAngles Instr.chk r.bytes
  | .val => decodeWindow Instr.val r.bytes
  | .dec => decodeWindow Instr.dec r.bytes
  | .frame56 => decodeWindow (fun b0 b1 b2 b3 b4 b5 b6 => .frame (flatten7 b0 b1 b2 b3 b4 b5 b6)) r.bytes
  | .rxs => decodeBurst r.bytes
  | .loop => decodeAngles Instr.loop r.bytes

/-- The request that asks for an operation: the `match` of its row, with 0 on the bits its mask leaves out and on the ports it
does not use. -/
def encode : Instr → Request
  | .frame w => ⟨.frame56, wireBytes w⟩
  | .chk a1 a2 => ⟨.chk, [hi8 a1, lo8 a1, hi8 a2, lo8 a2]⟩
  | .enc a1 a2 => portRequest 0b010 a1 a2 0
  | .val w0 w1 w2 w3 w4 w5 w6 => ⟨.val, [w0, w1, w2, w3, w4, w5, w6]⟩
  | .dec f0 f1 f2 f3 f4 f5 f6 => ⟨.dec, [f0, f1, f2, f3, f4, f5, f6]⟩
  | .rxb b => portRequest 0b001 0 0 b
  | .rst => portRequest 0b100 0 0 0
  | .nop => portRequest 0b000 0 0 0
  | .rxs bs => ⟨.rxs, bs⟩
  | .loop a1 a2 => ⟨.loop, [hi8 a1, lo8 a1, hi8 a2, lo8 a2]⟩

/-- The `n` low bytes of a number, the most significant first: the order in which a word of the table is on the wire (R50). -/
def bytesOfNat : Nat → Nat → List Byte
  | 0, _ => []
  | n + 1, w => BitVec.ofNat 8 (w / 2 ^ (8 * n)) :: bytesOfNat n w

/-- The request that a word of spec/opcode_table.json stands for. Eight bits or fewer are a `sel` value with 0 on every other
port; 32 bits are the operand word of `CHK`; 56 bits are a wire word, the FRAME row (`VAL` and `DEC` have the same pattern and
no selection code of their own, log 7). No row has another width: such a word is laid out as bytes that `decode` rejects. -/
def requestOfTableWord (nbits w : Nat) : Request :=
  if nbits ≤ 8 then ⟨.sel3, bytesOfNat 1 w ++ [0, 0, 0, 0, 0]⟩
  else if nbits = 32 then ⟨.chk, bytesOfNat 4 w⟩
  else if nbits = 56 then ⟨.frame56, bytesOfNat 7 w⟩
  else ⟨.sel3, []⟩

/-- The operation the decoder reads from a word of spec/opcode_table.json. -/
def decodeTableWord (nbits w : Nat) : Option Instr :=
  match decode (requestOfTableWord nbits w) with
  | .ok i _ => some i
  | .bad _ => none

end Sys2Proof
end

