-- ==== Sys2Proof/Machine/Fetch.lean ====
section
/-! DEFINITION. What the next step is asked to do. The block has no program counter and no fetch (spec/10_state.md R16,
spec/20_memory.md R43): the environment presents a request (spec/70_reset_and_hazards.md R166). -/

namespace Sys2Proof.Machine

/-- The request of the next step and the requests after it. With nothing asked for, all request lines are 0: `sel = 000`, which is
`NOP`, "the step in which the environment asks for nothing" (R163). -/
def nextRequest (s : State) : Request × List Request :=
  match s.pending with
  | [] => (encode .nop, [])
  | r :: rs => (r, rs)

/-- What that request means. -/
def nextDecoded (s : State) : Decoded := decode (nextRequest s).1

/-- The state in which the decoded operation runs: its request is taken, `rest` is what the request still asks for. -/
def takeRequest (s : State) (rest : List Request) : State := s.setPending (rest ++ (nextRequest s).2)

/-- A trace (R62), its requests queued after what is pending already. -/
def loadTrace (s : State) (is : List Instr) : State := s.setPending (s.pending ++ is.map encode)

end Sys2Proof.Machine
end

