-- ==== Sys2Proof/Machine/Step.lean ====
section
/-! DEFINITION. One step: the execution of one operation, the one the environment asks for next (spec/20_memory.md R31). -/

namespace Sys2Proof.Machine

/-- One step (R31). Only a request that is no value of the ports and no operand of the right width is refused (R130). -/
def step (s : State) : Host.Outcome State Fault Refusal :=
  match nextDecoded s with
  | .ok i rest => exec i (takeRequest s rest)
  | .bad e => .refused (.noSuchRequest e)

/-- The state in which the environment asks next for the operation whose word in spec/opcode_table.json is `w`. -/
def State.withFetchWord (s : State) (nbits w : Nat) : State :=
  s.setPending (requestOfTableWord nbits w :: s.pending)

end Sys2Proof.Machine
end

