-- ==== Sys2Proof/Machine/Forms.lean ====
section
/-! DEFINITION. The framer over a finite stream, and the other formulations of it that spec/43_framer.md R106 and R110 give: by
index, replay, sliding window, whole stream. R100 (`framerStep`) is the normative one; statements compare the others with it. -/

namespace Sys2Proof.Machine

/-- The framer of R100 over a stream: its state at the end and one event per byte. -/
def runFramer (f : Framer) : List Byte → Framer × List Event
  | [] => (f, [])
  | b :: bs =>
    let (g, e) := framerStep f b
    let (h, es) := runFramer g bs
    (h, e :: es)

/-- The events other than `-`, each with the position of its byte, counted from `at_`. -/
def positioned (at_ : Nat) : List Event → List (Nat × Event)
  | [] => []
  | .quiet :: es => positioned (at_ + 1) es
  | .emit r :: es => (at_, .emit r) :: positioned (at_ + 1) es
  | .discard :: es => (at_, .discard) :: positioned (at_ + 1) es

/-- `Seek` by index, as R106 writes it: the least `k` with `bs[k] = 0xAA`, then `bs[k+1 ..]`. -/
def seekByIndex (bs : List Byte) : Framer :=
  match bs.findIdx? (fun b => b == START) with
  | none => ⟨.seekStart, []⟩
  | some k => ⟨.collecting, bs.drop (k + 1)⟩

/-- The non-validating part of an `RXB`: R102, and R103's first part whatever the fill count. -/
def collectStep (f : Framer) (b : Byte) : Framer :=
  match f.rxState with
  | .seekStart => if b = START then ⟨.collecting, []⟩ else f
  | .collecting => ⟨.collecting, f.acc ++ [b]⟩

/-- Replay form of the re-seek (R110): from `(SEEK_START, [])`, the bytes one at a time. -/
def replay (bs : List Byte) : Framer := bs.foldl collectStep ⟨.seekStart, []⟩

/-- Sliding-window form (R110): the last seven bytes, and how many of the newest lie at or after the scan origin. -/
structure Sliding where
  sr : List Byte
  fresh : Nat
  deriving DecidableEq, Repr

/-- One byte in the sliding-window form (R110). -/
def slidingStep (w : Sliding) (b : Byte) : Sliding × Event :=
  let sr := w.sr.drop 1 ++ [b]
  let fresh := min (w.fresh + 1) 7
  if fresh = 7 ∧ sr.head? = some START then
    match validate sr with
    | some r => (⟨sr, 0⟩, .emit r)
    | none => (⟨sr, 7⟩, .discard)
  else (⟨sr, fresh⟩, .quiet)

/-- The events of the sliding-window form over a stream, one per byte. -/
def runSliding (w : Sliding) : List Byte → List Event
  | [] => []
  | b :: bs => (slidingStep w b).2 :: runSliding (slidingStep w b).1 bs

/-- The least position at or after `s` that holds START (R110). -/
def nextStart (B : List Byte) (s : Nat) : Option Nat :=
  ((B.drop s).findIdx? (fun b => b == START)).map (fun k => s + k)

/-- Whole-stream form (R110) from scan origin `s`; `fuel` bounds the number of windows tried, of which there are at most as many
as bytes. -/
def wholeStreamFrom (B : List Byte) : Nat → Nat → List (Nat × Event)
  | 0, _ => []
  | fuel + 1, s =>
    match nextStart B s with
    | none => []
    | some q =>
      if q + 6 ≥ B.length then []
      else
        match validate ((B.drop q).take 7) with
        | some r => (q + 6, .emit r) :: wholeStreamFrom B fuel (q + 7)
        | none => (q + 6, .discard) :: wholeStreamFrom B fuel (q + 1)

/-- The events of a finite stream in whole-stream form, scan origin 0 (R110, R111). -/
def wholeStream (B : List Byte) : List (Nat × Event) := wholeStreamFrom B (B.length + 1) 0

/-- The Readings among events, in order. -/
def emittedReadings : List Event → List Reading
  | [] => []
  | .emit r :: es => r :: emittedReadings es
  | .quiet :: es => emittedReadings es
  | .discard :: es => emittedReadings es

/-- How many of the events are discards. -/
def countDiscards : List Event → Nat
  | [] => 0
  | .discard :: es => countDiscards es + 1
  | .quiet :: es => countDiscards es
  | .emit _ :: es => countDiscards es

end Sys2Proof.Machine
end

