-- ==== Sys2Proof/Machine/TraceText.lean ====
section
/-! DEFINITION. The trace notation of spec/30_encoding.md R61, a text form of the operations (not of FRAME, which is no
operation): reading one line, writing one, and writing outcomes and framer states. Text is a list of characters. -/

namespace Sys2Proof.Machine

/-- The digit that stands for `d` in base 10 or 16: code `30`H up for 0 to 9, `41`H up (`A`) for 10 to 15. -/
def digitChar (d : Nat) : Char := Char.ofNat (if d < 10 then 0x30 + d else 0x37 + d)

/-- The value of a digit: the `d` below the base whose digit it is, a small letter read as its capital (log 19). -/
def digitValue (base : Nat) (c : Char) : Option Nat := (List.range base).find? (fun d => digitChar d == c.toUpper)

/-- A number in a base, its most significant digit first; none when a character is no digit of that base. -/
def readNumber (base : Nat) (ds : List Char) : Option Nat :=
  ds.foldlM (fun n c => (digitValue base c).map (fun d => base * n + d)) 0

/-- `u8 ::= two hexadecimal digits, with or without "0x"` (R61). -/
def readU8 : List Char → Option Byte
  | ['0', 'x', h, l] => (readNumber 16 [h, l]).map (BitVec.ofNat 8)
  | [h, l] => (readNumber 16 [h, l]).map (BitVec.ofNat 8)
  | _ => none

/-- `u16 ::= decimal number 0..65535 | "0x" 1 to 4 hexadecimal digits` (R61). -/
def readU16 : List Char → Option Angle
  | [] => none
  | '0' :: 'x' :: ds =>
    if 1 ≤ ds.length ∧ ds.length ≤ 4 then (readNumber 16 ds).map (BitVec.ofNat 16) else none
  | ds =>
    match readNumber 10 ds with
    | some n => if n ≤ 65535 then some (BitVec.ofNat 16 n) else none
    | none => none

/-- The words of a line up to its comment: "operands separated by commas or spaces, a comment after `;`" (R61). `cur` is the word
being read. DEDUCED log 19: any run of commas and spaces separates. -/
def lineWords (cur : List Char) : List Char → List (List Char)
  | [] => if cur.isEmpty then [] else [cur]
  | c :: cs =>
    if c = ';' then (if cur.isEmpty then [] else [cur])
    else if c = ' ' ∨ c = ',' then
      (if cur.isEmpty then lineWords [] cs else cur :: lineWords [] cs)
    else lineWords (cur ++ [c]) cs

/-- Two 16-bit operands. -/
def readPair (mk : Angle → Angle → Instr) : List (List Char) → Option Instr
  | [x, y] =>
    match readU16 x, readU16 y with
    | some a1, some a2 => some (mk a1 a2)
    | _, _ => none
  | _ => none

/-- Byte operands. -/
def readBytes : List (List Char) → Option (List Byte)
  | [] => some []
  | w :: ws =>
    match readU8 w, readBytes ws with
    | some b, some bs => some (b :: bs)
    | _, _ => none

/-- Seven byte operands. -/
def readWindow (mk : Byte → Byte → Byte → Byte → Byte → Byte → Byte → Instr) (ws : List (List Char)) : Option Instr :=
  match readBytes ws with
  | some [w0, w1, w2, w3, w4, w5, w6] => some (mk w0 w1 w2 w3 w4 w5 w6)
  | _ => none

/-- One byte operand. -/
def readOneByte (ws : List (List Char)) : Option Instr :=
  match readBytes ws with
  | some [b] => some (.rxb b)
  | _ => none

/-- One byte operand or more. -/
def readBurst (ws : List (List Char)) : Option Instr :=
  match readBytes ws with
  | some (b :: bs) => some (.rxs (b :: bs))
  | _ => none

/-- `line ::= op [ ";" comment ]` (R61). -/
def readLine (line : List Char) : Option Instr :=
  match lineWords [] line with
  | ['R', 'S', 'T'] :: [] => some .rst
  | ['N', 'O', 'P'] :: [] => some .nop
  | ['E', 'N', 'C'] :: ws => readPair .enc ws
  | ['C', 'H', 'K'] :: ws => readPair .chk ws
  | ['L', 'O', 'O', 'P'] :: ws => readPair .loop ws
  | ['V', 'A', 'L'] :: ws => readWindow .val ws
  | ['D', 'E', 'C'] :: ws => readWindow .dec ws
  | ['R', 'X', 'B'] :: ws => readOneByte ws
  | ['R', 'X', 'S'] :: ws => readBurst ws
  | _ => none

/-- A byte as two hexadecimal digits. -/
def writeU8 (b : Byte) : List Char := [digitChar (b.extractLsb' 4 4).toNat, digitChar (b.extractLsb' 0 4).toNat]

/-- A 16-bit value as `0x` and four hexadecimal digits. -/
def writeU16 (a : Angle) : List Char := '0' :: 'x' :: writeU8 (hi8 a) ++ writeU8 (lo8 a)

/-- Bytes, a space before each. -/
def writeBytes : List Byte → List Char
  | [] => []
  | b :: bs => ' ' :: writeU8 b ++ writeBytes bs

/-- Two 16-bit operands, a space before and a comma between. -/
def writePair (a1 a2 : Angle) : List Char := ' ' :: writeU16 a1 ++ ',' :: ' ' :: writeU16 a2

/-- One line for an operation; FRAME has none. -/
def writeLine : Instr → Option (List Char)
  | .frame _ => none
  | .chk a1 a2 => some (['C', 'H', 'K'] ++ writePair a1 a2)
  | .enc a1 a2 => some (['E', 'N', 'C'] ++ writePair a1 a2)
  | .val w0 w1 w2 w3 w4 w5 w6 => some (['V', 'A', 'L'] ++ writeBytes [w0, w1, w2, w3, w4, w5, w6])
  | .dec f0 f1 f2 f3 f4 f5 f6 => some (['D', 'E', 'C'] ++ writeBytes [f0, f1, f2, f3, f4, f5, f6])
  | .rxb b => some (['R', 'X', 'B'] ++ writeBytes [b])
  | .rst => some ['R', 'S', 'T']
  | .nop => some ['N', 'O', 'P']
  | .rxs bs => some (['R', 'X', 'S'] ++ writeBytes bs)
  | .loop a1 a2 => some (['L', 'O', 'O', 'P'] ++ writePair a1 a2)

/-- A number in decimal, before the characters `tail`; `fuel` bounds its digits. -/
def writeDecimal : Nat → Nat → List Char → List Char
  | 0, _, tail => tail
  | fuel + 1, n, tail =>
    let out := digitChar (n % 10) :: tail
    if n < 10 then out else writeDecimal fuel (n / 10) out

/-- A Reading as `(a1, a2)`, in decimal. -/
def writeReading (r : Reading) : List Char :=
  '(' :: writeDecimal 5 r.a1.toNat (',' :: ' ' :: writeDecimal 5 r.a2.toNat [')'])

/-- Bytes in hexadecimal, a space between two. -/
def writeByteList (bs : List Byte) : List Char := (writeBytes bs).drop 1

/-- The outcome of a line: for `ENC` the frame, for `RXB` one of `-`, `emit (a1, a2)`, `discard`, for the queries their result
(R61). The rule names no outcome for `RST` and `NOP`; `-` is written, as for any step without event. -/
def writeOutcome (o : StepOut) : List Char :=
  match o.tx, o.rd, o.rxDiscard, o.result with
  | some f, _, _, _ => writeByteList f
  | none, some r, _, _ => ['e', 'm', 'i', 't', ' '] ++ writeReading r
  | none, none, true, _ => ['d', 'i', 's', 'c', 'a', 'r', 'd']
  | none, none, false, some (.byte b) => writeU8 b
  | none, none, false, some (.reading (some r)) => ['s', 'o', 'm', 'e'] ++ writeReading r
  | none, none, false, some (.reading none) => ['n', 'o', 'n', 'e']
  | none, none, false, none => ['-']

/-- The state after a line: `SEEK []` or `COLL [b ...]` (R61). -/
def writeFramer (f : Framer) : List Char :=
  (match f.rxState with
    | .seekStart => ['S', 'E', 'E', 'K', ' ']
    | .collecting => ['C', 'O', 'L', 'L', ' ']) ++ '[' :: writeByteList f.acc ++ [']']

end Sys2Proof.Machine
end

