-- ==== Sys2Proof/Safety.lean ====
section
/-! DEFINITION. What holds of every state a run reaches, in the terms claims use (spec/10_state.md R15, R18, R19;
spec/20_memory.md R33; spec/42_validate.md R94; spec/43_framer.md R111). -/

namespace Sys2Proof.Machine

/-- The invariants of R15 on `(rx_state, acc)`: seeking means nothing is collected, and the buffer holds at most five bytes. -/
abbrev Framer.Ok (f : Framer) : Prop :=
  (f.rxState = .seekStart → f.acc = []) ∧ f.acc.length ≤ accCap

/-- R15's third invariant: while collecting `k` bytes, the byte received `k + 1` bytes ago was START and the last `k` bytes
received are `acc`. `rxs` is the stream consumed so far. -/
def WindowOpen (s : State) : Prop :=
  s.rxState = .collecting → ∃ before, s.rxs = before ++ START :: s.acc

/-- `discard_cnt` is a value of `DISCARD_W` bits, and `DISCARD_W` is positive (R18, U7). -/
abbrev CounterOk (s : State) : Prop :=
  0 < s.cfg.discardW ∧ s.discardCnt < 2 ^ s.cfg.discardW

/-- `TXS` is a sequence of whole frames, never interleaved (R33, R38, R40). -/
def SentWholeFrames (s : State) : Prop :=
  ∃ sent : List Reading, s.txs = sent.flatMap (fun r => encodeFrame r.a1 r.a2)

/-- In every step shown, `rd_valid` and `rx_discard` are not both 1 (R17). -/
abbrev OneEventPerStep (s : State) : Prop :=
  ∀ o ∈ s.outs, ¬(rdValid o = true ∧ rxDiscardFlag o = true)

/-- The invariant of the machine. -/
def State.Inv (s : State) : Prop :=
  s.framer.Ok ∧ WindowOpen s ∧ CounterOk s ∧ SentWholeFrames s ∧ OneEventPerStep s

/-- Every Reading emitted was received: its frame is a run of consecutive bytes of the stream (R94, R104). -/
def ReadingsWereReceived (s : State) : Prop :=
  ∀ r ∈ s.rds, ∃ before after, s.rxs = before ++ encodeFrame r.a1 r.a2 ++ after

/-- Windows in a stream: before each Reading's frame a gap, every frame a stretch of its own. -/
def gapsAndFrames (gaps : List (List Byte)) (rs : List Reading) : List Byte :=
  (List.zipWith (fun gap r => gap ++ encodeFrame r.a1 r.a2) gaps rs).flatten

/-- "The emitted windows never overlap" (R111): the stream consumed (log 16) is a gap, the frame of the first Reading of `RDS`, a
gap, the frame of the second, and so on in emission order, and a rest; the window being collected, START and `acc`, lies in that
rest, behind every emitted window. -/
def WindowsDisjoint (s : State) : Prop :=
  ∃ (gaps : List (List Byte)) (rest : List Byte),
    gaps.length = s.rds.length ∧ s.rxs = gapsAndFrames gaps s.rds ++ rest ∧
    (s.rxState = .collecting → ∃ before, rest = before ++ START :: s.acc)

/-- Two states that differ in the discard counter and its width at most (R19: no rule reads the counter). -/
abbrev SameButCounter (s t : State) : Prop :=
  t = { s with cfg := t.cfg, discardCnt := t.discardCnt }

/-- The operations that leave the framer alone (R101: only `RXB` and `RST` write it; `RXS` and `LOOP` are runs of `RXB`). -/
def leavesFramer : Instr → Bool
  | .frame _ => true
  | .chk _ _ => true
  | .enc _ _ => true
  | .val _ _ _ _ _ _ _ => true
  | .dec _ _ _ _ _ _ _ => true
  | .nop => true
  | .rxb _ => false
  | .rst => false
  | .rxs _ => false
  | .loop _ _ => false

/-- The operations of R55's table. FRAME is a format (R63, log 6), `RXS` and `LOOP` are pseudo-operations (R62). -/
def isOperation : Instr → Bool
  | .frame _ => false
  | .chk _ _ => true
  | .enc _ _ => true
  | .val _ _ _ _ _ _ _ => true
  | .dec _ _ _ _ _ _ _ => true
  | .nop => true
  | .rxb _ => true
  | .rst => true
  | .rxs _ => false
  | .loop _ _ => false

/-- The frame an operation sends: `ENC`'s, and `LOOP`'s, whose first step is `ENC` (R33, R62). -/
def sentBytes : Instr → List Byte
  | .frame _ => []
  | .chk _ _ => []
  | .enc a1 a2 => encodeFrame a1 a2
  | .val _ _ _ _ _ _ _ => []
  | .dec _ _ _ _ _ _ _ => []
  | .nop => []
  | .rxb _ => []
  | .rst => []
  | .rxs _ => []
  | .loop a1 a2 => encodeFrame a1 a2

/-- The bytes of `RXSTREAM` an operation consumes (R32, R62). -/
def consumedBytes : Instr → List Byte
  | .frame _ => []
  | .chk _ _ => []
  | .enc _ _ => []
  | .val _ _ _ _ _ _ _ => []
  | .dec _ _ _ _ _ _ _ => []
  | .nop => []
  | .rxb b => [b]
  | .rst => []
  | .rxs bs => bs
  | .loop a1 a2 => encodeFrame a1 a2

/-- Executing operations one after another (R31, R40). -/
def execAll : List Instr → State → Host.Outcome State Fault Refusal
  | [], s => .next s
  | i :: is, s =>
    match exec i s with
    | .next t => execAll is t
    | .fault r => .fault r
    | .refused r => .refused r

/-- `n` steps one after another (R31); the machine's own `step`, said on `State`. -/
def runSteps : Nat → State → Host.Outcome State Fault Refusal
  | 0, s => .next s
  | n + 1, s =>
    match step s with
    | .next t => runSteps n t
    | .fault r => .fault r
    | .refused r => .refused r

end Sys2Proof.Machine
end

