-- ==== Sys2Proof/Certificates/Slice0/Obligations.lean ====
section
/-! DEFINITION. The statements for the provers, from the numbered rules of spec/. A docstring names the rule; where the spec marks
a rule as derived or as its own decision, or where the model chose, the docstring says so. -/

open Sys2Proof Sys2Proof.Machine

/-! ## Checksum, encoder, validator -/

/-- `CHK` completes, answers the checksum and changes nothing else (R72); the checksum is the XOR of the four angle bytes, bit by
bit, in both forms (R70, R71). That the three flags are 0 in a query's step is the model's reading of R17 (log 14, DEDUCED). -/
def Obligations.ChkAnswersXorOfAngleBytes : Prop :=
  (∀ (a1 a2 : Angle) (s : State),
    exec (.chk a1 a2) s = .next { s with outs := [⟨none, none, false, some (.byte (checksum a1 a2))⟩] }) ∧
  (∀ a1 a2 : Angle,
    checksum a1 a2 = hi8 a1 ^^^ lo8 a1 ^^^ hi8 a2 ^^^ lo8 a2 ∧
    checksum a1 a2 = chk4 (hi8 a1) (lo8 a1) (hi8 a2) (lo8 a2) ∧
    ∀ k, k < 8 → (checksum a1 a2).getLsbD k =
      (((a1.getLsbD (k + 8) ^^ a1.getLsbD k) ^^ a2.getLsbD (k + 8)) ^^ a2.getLsbD k)) ∧
  (∀ b1 b2 b3 b4 : Byte,
    chk4 b1 b2 b3 b4 = b1 ^^^ b2 ^^^ b3 ^^^ b4 ∧
    chk4 b1 b2 b3 b4 = checksum (cat16 b1 b2) (cat16 b3 b4))

/-- The seven bytes of the frame, for all operand pairs (R80); `ENC` shows them with `tx_valid`, appends them to TXS and changes
nothing else (R82, R33). That `rd_valid` and `rx_discard` are 0 in that step is the model's reading of R17 beside R82's "not
touched" (log 14, DEDUCED). -/
def Obligations.EncSendsTheFrame : Prop :=
  ∀ (a1 a2 : Angle) (s : State),
    encodeFrame a1 a2 = [0xAA, hi8 a1, lo8 a1, hi8 a2, lo8 a2, checksum a1 a2, 0x55] ∧
    exec (.enc a1 a2) s =
      .next { s with txs := s.txs ++ encodeFrame a1 a2, outs := [⟨some (encodeFrame a1 a2), none, false, none⟩] }

/-- `VAL` and `DEC` complete on all bytes with one same answer: the two angles, each high byte first, when START, END and checksum
are right, none otherwise; nothing else changes. Rests on R90, R91, R95; that START is tested and that `DEC` is `VAL` are the
spec's own decisions D19 and D12, that the three flags are 0 in a query's step the model's reading of R17 (log 14, DEDUCED). -/
def Obligations.ValAndDecAnswerTheWindowTest : Prop :=
  ∀ (w0 w1 w2 w3 w4 w5 w6 : Byte) (s : State), ∃ r : Option Reading,
    exec (.val w0 w1 w2 w3 w4 w5 w6) s = .next { s with outs := [⟨none, none, false, some (.reading r)⟩] } ∧
    exec (.dec w0 w1 w2 w3 w4 w5 w6) s = .next { s with outs := [⟨none, none, false, some (.reading r)⟩] } ∧
    ((w0 = 0xAA ∧ w6 = 0x55 ∧ w5 = w1 ^^^ w2 ^^^ w3 ^^^ w4) → r = some ⟨w1 ++ w2, w3 ++ w4⟩) ∧
    (¬(w0 = 0xAA ∧ w6 = 0x55 ∧ w5 = w1 ^^^ w2 ^^^ w3 ^^^ w4) → r = none)

/-- The FRAME row answers, for every 56-bit word, what the window test says of its seven wire bytes; mask, match and constraint
decide it; flattening and its inverse agree. Rests on R50, R51, R63; that the row is a query is the model's choice (log 6), its
flags 0 the model's reading of R17 (log 14, DEDUCED), the flattening the spec's decision D18. -/
def Obligations.FrameWordTestIsTheWindowTest : Prop :=
  (∀ (w : BitVec 56) (s : State),
    exec (.frame w) s =
      .next { s with outs := [⟨none, none, false, some (.reading (validate (wireBytes w)))⟩] } ∧
    ((validate (wireBytes w)).isSome = true ↔
      w &&& 0xFF0000000000FF = 0xAA000000000055 ∧
      w.extractLsb' 8 8 =
        w.extractLsb' 40 8 ^^^ w.extractLsb' 32 8 ^^^ w.extractLsb' 24 8 ^^^ w.extractLsb' 16 8)) ∧
  (∀ b0 b1 b2 b3 b4 b5 b6 : Byte,
    wireBytes (flatten7 b0 b1 b2 b3 b4 b5 b6) = [b0, b1, b2, b3, b4, b5, b6]) ∧
  (∀ a1 a2 : Angle, ∃ w : BitVec 56, wireBytes w = encodeFrame a1 a2)

/-- What the validator accepts is exactly what the encoder sends, and different pairs give different frames; said on `DEC` too.
The spec marks it as derived (R84, R94); it contains the source's round trip. The flags shown in the `DEC` step are log 14. -/
def Obligations.DecodedExactlyWhenEncoded : Prop :=
  (∀ (w : List Byte) (r : Reading), validate w = some r ↔ w = encodeFrame r.a1 r.a2) ∧
  (∀ a1 a2 b1 b2 : Angle, encodeFrame a1 a2 = encodeFrame b1 b2 → a1 = b1 ∧ a2 = b2) ∧
  (∀ (f0 f1 f2 f3 f4 f5 f6 : Byte) (r : Reading) (s : State),
    exec (.dec f0 f1 f2 f3 f4 f5 f6) s = .next { s with outs := [⟨none, none, false, some (.reading (some r))⟩] } ↔
      [f0, f1, f2, f3, f4, f5, f6] = encodeFrame r.a1 r.a2)

/-- One of the `2^16` endings of any four angle bytes after START is accepted, no other (R94, marked as derived by the spec). -/
def Obligations.ExactlyOneEndingIsAccepted : Prop :=
  ∀ w1 w2 w3 w4 : Byte, ∃ c e : Byte, ∀ w5 w6 : Byte,
    (validate [0xAA, w1, w2, w3, w4, w5, w6]).isSome = true ↔ (w5 = c ∧ w6 = e)

/-- Flipping one bit of a frame, any of its 56, makes the validator reject it; in general the checksum test passes after errors
`e1 … e5` in bytes 1 to 5 exactly when an even number of them has each bit. R74: the bytes 1 to 4 are the source's property, the
rest the spec marks as derived; the flips of the markers are vector V7. -/
def Obligations.SingleBitErrorsAreRejected : Prop :=
  (∀ (a1 a2 : Angle) (i k : Nat) (b : Byte), k < 8 → (encodeFrame a1 a2)[i]? = some b →
    validate ((encodeFrame a1 a2).set i (b ^^^ BitVec.twoPow 8 k)) = none) ∧
  (∀ b1 b2 b3 b4 e1 e2 e3 e4 e5 : Byte,
    (chk4 b1 b2 b3 b4 ^^^ e5 = chk4 (b1 ^^^ e1) (b2 ^^^ e2) (b3 ^^^ e3) (b4 ^^^ e4) ↔
      ∀ k, k < 8 →
        ((((e1.getLsbD k ^^ e2.getLsbD k) ^^ e3.getLsbD k) ^^ e4.getLsbD k) ^^ e5.getLsbD k) = false))

/-- What the checksum cannot see, which a model must keep (R75, R76; the spec marks the list as derived): swapped angles, swapped
bytes of one angle, equal angles, one pattern flipped in both; and every checksum value occurs in the domain. -/
def Obligations.ChecksumWeaknessesAreKept : Prop :=
  ∀ a1 a2 d : Angle,
    checksum a1 a2 = checksum a2 a1 ∧
    checksum (cat16 (lo8 a1) (hi8 a1)) a2 = checksum a1 a2 ∧
    checksum a1 a1 = 0 ∧
    checksum (a1 ^^^ d) (a2 ^^^ d) = checksum a1 a2 ∧
    validate [0xAA, hi8 a2, lo8 a2, hi8 a1, lo8 a1, checksum a1 a2, 0x55] = some ⟨a2, a1⟩ ∧
    ∀ v : Byte, checksum 0 (v.setWidth 16) = v ∧ inDomain (v.setWidth 16) = true

/-- The output ports of R21 and the codings of R18 lose nothing. `discard_cnt` at its width shows the count. Three bits code the
fill count and one bit codes `rx_state`; these two have no port (R13, R18) and are views of the model. The 56 bits of `tx_frame` in
an `ENC` step are the frame's seven bytes, which the FRAME row reads back (R50). `rd_a1` and `rd_a2` in an emitting `RXB` step are
the two angles of the window that validated (R104). The port list is the spec's decision D2, the flattening D18, the counter D8; the
FRAME row's answer is the model's choice (log 6), and so is the optional value a port gives (log 9). -/
def Obligations.PortsAndCodingsLoseNothing : Prop :=
  (∀ s : State, s.Inv →
    (discardCntPort s).toNat = s.discardCnt ∧ (fillCount s).toNat = s.acc.length) ∧
  (∀ x y : RxState, rxStateBit x = rxStateBit y ↔ x = y) ∧
  (∀ (a1 a2 : Angle) (s : State), ∃ (t u : State) (w : BitVec 56),
    exec (.enc a1 a2) s = .next t ∧ t.outs.map txFramePort = [some w] ∧ wireBytes w = encodeFrame a1 a2 ∧
    exec (.frame w) t = .next u ∧ u.outs.map (fun o => o.result) = [some (.reading (some ⟨a1, a2⟩))]) ∧
  (∀ (w1 w2 w3 w4 w5 b : Byte) (s : State) (r : Reading),
    s.rxState = .collecting → s.acc = [w1, w2, w3, w4, w5] → validate [0xAA, w1, w2, w3, w4, w5, b] = some r →
    ∃ t : State, exec (.rxb b) s = .next t ∧ t.outs.map rdValid = [true] ∧
      t.outs.map rdA1Port = [some (w1 ++ w2)] ∧ t.outs.map rdA2Port = [some (w3 ++ w4)])

/-! ## Framer -/

/-- Every row of the transition table of R109, with the events; the Readings and the counter as R100's pseudocode writes them, and
what stays; and that no other operation but `RST` and the runs of `RXB` moves the framer (R101). That the counter exists and wraps
modulo `2^DISCARD_W` is the spec's decision D8 (R19, log 2), what `RST` does its D10; that the bytes consumed are recorded is the
model's choice (log 16), and so is leaving the framer alone on FRAME (log 6). Premise: the invariant of R15 on `(rx_state, acc)`,
which StepKeepsTheInvariant keeps. -/
def Obligations.FramerFollowsItsTransitionTable : Prop :=
  (∀ (s : State) (b : Byte), s.framer.Ok →
    (s.rxState = .seekStart → b ≠ 0xAA →
      exec (.rxb b) s = .next { s with rxs := s.rxs ++ [b], outs := [quietOut] }) ∧
    (s.rxState = .seekStart → b = 0xAA →
      exec (.rxb b) s =
        .next { s with rxState := .collecting, acc := [], rxs := s.rxs ++ [b], outs := [quietOut] }) ∧
    (s.rxState = .collecting → s.acc.length < 5 →
      exec (.rxb b) s =
        .next { s with rxState := .collecting, acc := s.acc ++ [b], rxs := s.rxs ++ [b], outs := [quietOut] }) ∧
    (∀ r, s.rxState = .collecting → s.acc.length = 5 → validate (0xAA :: s.acc ++ [b]) = some r →
      exec (.rxb b) s =
        .next { s with rxState := .seekStart, acc := [], rxs := s.rxs ++ [b], rds := s.rds ++ [r],
                       outs := [⟨none, some r, false, none⟩] }) ∧
    (∀ before after, s.rxState = .collecting → s.acc.length = 5 → validate (0xAA :: s.acc ++ [b]) = none →
      s.acc ++ [b] = before ++ 0xAA :: after → 0xAA ∉ before →
      exec (.rxb b) s =
        .next { s with rxState := .collecting, acc := after, rxs := s.rxs ++ [b],
                       discardCnt := (s.discardCnt + 1) % 2 ^ s.cfg.discardW,
                       outs := [⟨none, none, true, none⟩] }) ∧
    (s.rxState = .collecting → s.acc.length = 5 → validate (0xAA :: s.acc ++ [b]) = none → 0xAA ∉ s.acc ++ [b] →
      exec (.rxb b) s =
        .next { s with rxState := .seekStart, acc := [], rxs := s.rxs ++ [b],
                       discardCnt := (s.discardCnt + 1) % 2 ^ s.cfg.discardW,
                       outs := [⟨none, none, true, none⟩] })) ∧
  (∀ s : State,
    exec .rst s = .next { s with rxState := .seekStart, acc := [], discardCnt := 0, outs := [quietOut] }) ∧
  (∀ (i : Instr) (s t : State), leavesFramer i = true → exec i s = .next t → t.framer = s.framer)

/-- The re-seek said by index (R106) and as a replay of the bytes (R110, marked as derived by the spec) is the same function; over
at most six bytes it leaves at most five (R106, derived), so no second window completes. -/
def Obligations.ReseekFormsAgree : Prop :=
  ∀ bs : List Byte,
    seek bs = seekByIndex bs ∧ seek bs = replay bs ∧ (bs.length ≤ 6 → (seek bs).Ok)

/-- The sliding-window form gives the same event at every byte of every stream, whatever its register held before (R110, marked as
derived by the spec). -/
def Obligations.SlidingWindowGivesTheSameEvents : Prop :=
  ∀ sr B : List Byte, sr.length = 7 → runSliding ⟨sr, 0⟩ B = (runFramer Framer.idle B).2

/-- The whole-stream form gives the same events at the same bytes (R110, R111, marked as derived by the spec). -/
def Obligations.WholeStreamGivesTheSameEvents : Prop :=
  ∀ B : List Byte, positioned 0 (runFramer Framer.idle B).2 = wholeStream B

/-- A burst is the framer run over its bytes: one output record a byte, the Readings appended to RDS in stream order, the counter
advanced by the number of discards modulo its width, nothing else changed (R62, R108, R34, R19; R108 and R34 are marked as derived
by the spec, the counter is its decision D8; that one operation shows all its steps is the model's choice, log 8). Premise: the
counter is a value of its width. -/
def Obligations.BurstIsTheFramerOverItsBytes : Prop :=
  ∀ (bs : List Byte) (s : State), CounterOk s →
    exec (.rxs bs) s =
      .next { s with
        rxState := (runFramer s.framer bs).1.rxState
        acc := (runFramer s.framer bs).1.acc
        discardCnt := (s.discardCnt + countDiscards (runFramer s.framer bs).2) % 2 ^ s.cfg.discardW
        outs := (runFramer s.framer bs).2.map eventOut
        rxs := s.rxs ++ bs
        rds := s.rds ++ emittedReadings (runFramer s.framer bs).2 }

/-- How a stream is cut into bursts does not matter, and a burst of one byte is `RXB` (R108, marked as derived by the spec). -/
def Obligations.ChunkingDoesNotMatter : Prop :=
  (∀ (xs ys : List Byte) (s : State), ∃ t u : State,
    exec (.rxs xs) s = .next t ∧ exec (.rxs ys) t = .next u ∧
    exec (.rxs (xs ++ ys)) s = .next { u with outs := t.outs ++ u.outs }) ∧
  (∀ (b : Byte) (s : State), exec (.rxs [b]) s = exec (.rxb b) s)

/-- `LOOP` is `ENC`, then the burst of its frame, in every state (R62, the spec's decision D13; that one operation shows all its
steps is the model's choice, log 8). -/
def Obligations.LoopIsEncThenBurst : Prop :=
  ∀ (a1 a2 : Angle) (s : State), ∃ t u : State,
    exec (.enc a1 a2) s = .next t ∧ exec (.rxs (encodeFrame a1 a2)) t = .next u ∧
    exec (.loop a1 a2) s = .next { u with outs := t.outs ++ u.outs }

/-- Round trip through the framer: from `(SEEK_START, [])`, six quiet steps, the Reading in the seventh, no discard, and the framer
back where it was, for all operand pairs (R114, marked as derived by the spec; the source states it for 0 to 4095). That one
operation shows all its steps is the model's choice (log 8), the receive flags 0 in the `ENC` step its reading of R17 (log 14). -/
def Obligations.LoopReturnsTheReading : Prop :=
  ∀ (a1 a2 : Angle) (s : State), s.rxState = .seekStart → s.acc = [] →
    exec (.loop a1 a2) s =
      .next { s with
        txs := s.txs ++ encodeFrame a1 a2
        rxs := s.rxs ++ encodeFrame a1 a2
        rds := s.rds ++ [⟨a1, a2⟩]
        outs := frameOut (encodeFrame a1 a2) ::
          (List.replicate 6 quietOut ++ [⟨none, some ⟨a1, a2⟩, false, none⟩]) }

/-- `DEC` and the framer agree on seven bytes: from `(SEEK_START, [])` the burst emits the Reading that `DEC` answers, and none where
it answers none; a sequence that does not begin with START gives no event at all, one that does gives its event in the seventh step
(R96, marked as derived by the spec). -/
def Obligations.DecAgreesWithTheFramer : Prop :=
  ∀ (f0 f1 f2 f3 f4 f5 f6 : Byte) (s : State), s.framer = Framer.idle → ∃ t : State,
    exec (.rxs [f0, f1, f2, f3, f4, f5, f6]) s = .next t ∧
    t.rds = s.rds ++ (validate [f0, f1, f2, f3, f4, f5, f6]).toList ∧
    (f0 ≠ 0xAA → t.outs = List.replicate 7 quietOut) ∧
    (f0 = 0xAA → ∃ e : Event, e ≠ .quiet ∧ t.outs = List.replicate 6 quietOut ++ [eventOut e])

/-- At most one event a byte; no event in the first six bytes after `(SEEK_START, [])`, and so none within six bytes of an emit,
which leaves the framer there (R107, marked as derived by the spec). -/
def Obligations.EventsAreSpaced : Prop :=
  (∀ (i : Instr) (s t : State), exec i s = .next t → OneEventPerStep t) ∧
  (∀ (bs : List Byte) (s : State), s.framer = Framer.idle → bs.length ≤ 6 →
    ∃ t : State, exec (.rxs bs) s = .next t ∧ t.outs = List.replicate bs.length quietOut) ∧
  (∀ (b : Byte) (s t : State) (o : StepOut), exec (.rxb b) s = .next t → o ∈ t.outs → rdValid o = true →
    t.framer = Framer.idle)

/-- "Corruption of one frame must not suppress detection of the next valid frame": after any bytes at all, a frame is emitted in the
step of its last byte, provided none of the six windows that begin just before it validates by chance (R105, and R112, which the
spec marks as derived). -/
def Obligations.NextSoundFrameIsFound : Prop :=
  ∀ (noise : List Byte) (a1 a2 : Angle) (s : State), s.framer = Framer.idle →
    (∀ q, q < noise.length → noise.length ≤ q + 6 →
      validate (((noise ++ encodeFrame a1 a2).drop q).take 7) = none) →
    ∃ t : State, exec (.rxs (noise ++ encodeFrame a1 a2)) s = .next t ∧
      t.framer = Framer.idle ∧ t.rds.getLast? = some ⟨a1, a2⟩ ∧
      t.outs.getLast? = some ⟨none, some ⟨a1, a2⟩, false, none⟩

/-- The exact condition of R112 (marked as derived by the spec): a frame at position `q` of a stream is emitted at its last byte if
and only if no window that begins at one of the six positions before `q` is emitted. -/
def Obligations.FrameIsLostOnlyToAnEmittedWindow : Prop :=
  ∀ (before after : List Byte) (a1 a2 : Angle),
    (before.length + 6, Event.emit ⟨a1, a2⟩) ∈
        positioned 0 (runFramer Framer.idle (before ++ encodeFrame a1 a2 ++ after)).2 ↔
      ¬∃ (q : Nat) (r : Reading), q < before.length ∧ before.length ≤ q + 6 ∧
        (q + 6, Event.emit r) ∈ positioned 0 (runFramer Framer.idle (before ++ encodeFrame a1 a2 ++ after)).2

/-- Sound frames laid end to end are emitted frame for frame with no discard (R112, marked as derived by the spec). -/
def Obligations.CleanStreamIsEmittedFrameForFrame : Prop :=
  ∀ (rs : List Reading) (s : State), s.framer = Framer.idle →
    exec (.rxs (rs.flatMap (fun r => encodeFrame r.a1 r.a2))) s =
      .next { s with
        rxs := s.rxs ++ rs.flatMap (fun r => encodeFrame r.a1 r.a2)
        rds := s.rds ++ rs
        outs := rs.flatMap (fun r => List.replicate 6 quietOut ++ [⟨none, some r, false, none⟩]) }

/-- A frame cut short after START, with no START among its bytes, costs one discard and nothing of the sound frame behind it,
unless the one mixed window validates by chance (from R113 and R105). -/
def Obligations.CutFrameCostsOneDiscard : Prop :=
  ∀ (cut : List Byte) (a1 a2 : Angle) (s : State), s.framer = Framer.idle → cut.length ≤ 5 → 0xAA ∉ cut →
    validate ((0xAA :: cut ++ encodeFrame a1 a2).take 7) = none →
    ∃ t : State, exec (.rxs (0xAA :: cut ++ encodeFrame a1 a2)) s = .next t ∧
      t.framer = Framer.idle ∧ t.rds = s.rds ++ [⟨a1, a2⟩] ∧
      t.discardCnt = (s.discardCnt + 1) % 2 ^ s.cfg.discardW

/-! ## Reset, idle, and the two paths -/

/-- `RST` from any state: the triple at its reset values, no event, histories and everything else as before; twice is once; any
`sel` with `rst = 1` asks for `RST` alone (R160, R25, R56; the spec's decisions D10, D21, D25). The byte form of the ports is the
model's choice (log 3). -/
def Obligations.RstRestoresTheResetState : Prop :=
  (∀ s : State,
    exec .rst s = .next { State.resetWith s.cfg with rxs := s.rxs, txs := s.txs, rds := s.rds, pending := s.pending }) ∧
  (∀ s t : State, exec .rst s = .next t → exec .rst t = .next t) ∧
  (∀ (sel : BitVec 3) (a1 a2 : Angle) (b : Byte), sel.getLsbD 2 = true →
    decode (portRequest sel a1 a2 b) = .ok .rst [])

/-- The state right after reset (R25, R6; the values are the spec's decision D10; the empty histories and the empty queue are the
model's choice, log 12, log 1). -/
def Obligations.ResetStateValues : Prop :=
  State.reset.rxState = .seekStart ∧ State.reset.acc = [] ∧ State.reset.discardCnt = 0 ∧
  State.reset.cfg.discardW = 16 ∧ State.reset.outs = [quietOut] ∧
  txValid quietOut = false ∧ rdValid quietOut = false ∧ rxDiscardFlag quietOut = false ∧
  State.reset.txs = [] ∧ State.reset.rds = [] ∧ State.reset.rxs = [] ∧ State.reset.pending = []

/-- `NOP` changes nothing, and neither does any number of steps in which the environment asks for nothing: a partial window stays
(R163, the spec's decision D3; R113). -/
def Obligations.IdleStepsChangeNothing : Prop :=
  (∀ s : State, exec .nop s = .next { s with outs := [quietOut] }) ∧
  (∀ (s : State) (n : Nat), s.pending = [] → runSteps (n + 1) s = .next { s with outs := [quietOut] })

/-- `ENC` and reception share no state: in either order, the same state but for the outputs shown last, and each shows what it shows
alone (R41, marked as derived by the spec). -/
def Obligations.EncCommutesWithReception : Prop :=
  ∀ (a1 a2 : Angle) (bs : List Byte) (s : State), ∃ e er r re : State,
    exec (.enc a1 a2) s = .next e ∧ exec (.rxs bs) e = .next er ∧
    exec (.rxs bs) s = .next r ∧ exec (.enc a1 a2) r = .next re ∧
    { er with outs := [] } = { re with outs := [] } ∧ er.outs = r.outs ∧ re.outs = e.outs

/-- What `CHK`, `ENC`, `VAL` and `DEC` show does not depend on the state (R38), and neither does what `NOP` shows, no event (R163),
nor the answer of the FRAME row, which is a query by the model's choice (log 6). -/
def Obligations.CodecOutputsIgnoreTheState : Prop :=
  ∀ (i : Instr) (s s' t t' : State), leavesFramer i = true → exec i s = .next t → exec i s' = .next t' →
    t.outs = t'.outs

/-- No operation reads the discard counter: two states that differ in it and in its width only give states that differ in them only,
and the width stays (R19, the spec's decision D8). -/
def Obligations.CounterIsReadByNothing : Prop :=
  ∀ (i : Instr) (s t : State), SameButCounter s t → ∃ s' t' : State,
    exec i s = .next s' ∧ exec i t = .next t' ∧ SameButCounter s' t' ∧ s'.cfg = s.cfg ∧ t'.cfg = t.cfg

/-! ## Frame of every operation -/

/-- The frame of all operations. `ENC` appends its seven bytes to TXS and nothing else writes TXS (R33; `LOOP` is an `ENC` first and
`RXS` a run of `RXB`, the spec's decision D13); RDS only grows (R34); the operations that are neither `RXB`, `RST` nor runs of
`RXB` leave framer, counter and RDS alone (R101, R38, R19). The model's choices: the queue of requests, which stays (log 1), the
width of the counter as a field, which stays (log 10), the record of the bytes consumed (log 16), the FRAME row as a query
(log 6). -/
def Obligations.EachOperationWritesOnlyItsStreams : Prop :=
  (∀ (i : Instr) (s t : State), exec i s = .next t →
    t.cfg = s.cfg ∧ t.pending = s.pending ∧
    t.txs = s.txs ++ sentBytes i ∧ t.rxs = s.rxs ++ consumedBytes i ∧
    (∃ new, t.rds = s.rds ++ new) ∧
    (leavesFramer i = true →
      t.rxState = s.rxState ∧ t.acc = s.acc ∧ t.discardCnt = s.discardCnt ∧ t.rds = s.rds)) ∧
  (∀ a1 a2 : Angle, sentBytes (.enc a1 a2) = [0xAA, hi8 a1, lo8 a1, hi8 a2, lo8 a2, checksum a1 a2, 0x55]) ∧
  sentBytes .rst = [] ∧ (∀ bs, sentBytes (.rxs bs) = []) ∧ (∀ b, sentBytes (.rxb b) = [])

/-- Nothing stops the model (from R130): every operation has a next state in every state, and so has every step in which the
environment presents the ports, whatever is on them, or nothing. The model's choices in it: FRAME, which the spec does not call an
operation, is one (log 6); the empty burst, which the spec calls no operation at all, completes when executed (log 15); `RXS` and
`LOOP` run all their steps at once (log 8); the queue a step takes its request from (log 1) and the byte form of the ports
(log 3). -/
def Obligations.NoOperationEverStops : Prop :=
  (∀ (i : Instr) (s : State), ∃ t, exec i s = .next t) ∧
  (∀ s : State, s.pending = [] → ∃ t, step s = .next t) ∧
  (∀ (s : State) (sel : BitVec 3) (a1 a2 : Angle) (b : Byte) (later : List Request),
    s.pending = portRequest sel a1 a2 b :: later → ∃ t, step s = .next t) ∧
  (∀ (s : State) (i : Instr) (later : List Request), i.wellFormed = true →
    s.pending = encode i :: later → ∃ t, step s = .next t)

/-! ## Requests, decoding, steps -/

/-- The table of R56 (the spec's decisions D3, D20, D21), all eight values of `sel`. The byte form of the ports is the model's choice
(log 3), and so is `ENC` first on `sel = 011` (log 4). -/
def Obligations.SelectionFollowsItsTable : Prop :=
  ∀ (sel : BitVec 3) (a1 a2 : Angle) (b : Byte),
    decode (portRequest sel a1 a2 b) =
      match sel.getLsbD 2, sel.getLsbD 1, sel.getLsbD 0 with
      | true, _, _ => .ok .rst []
      | false, true, false => .ok (.enc a1 a2) []
      | false, false, true => .ok (.rxb b) []
      | false, true, true => .ok (.enc a1 a2) [portRequest 0b001 a1 a2 b]
      | false, false, false => .ok .nop []

/-- Decoding the request of a well-formed operation gives it back, with every operand at every value. The encodings are those of R50,
R56 and R63 in the model's byte form (log 3) and under the model's format names (log 5). -/
def Obligations.DecodeEncodeRoundTrip : Prop :=
  ∀ i : Instr, i.wellFormed = true → decode (encode i) = .ok i []

/-- The other direction: what decodes is well-formed; a call is the encoding of what it decodes to, byte for byte; a presentation of
the ports decodes to an operation whose own encoding means the same. The byte form is the model's choice (log 3, log 5). -/
def Obligations.EncodeDecodeRoundTrip : Prop :=
  ∀ (r : Request) (i : Instr) (rest : List Request), decode r = .ok i rest →
    i.wellFormed = true ∧ (r.fmt ≠ .sel3 → encode i = r ∧ rest = []) ∧ decode (encode i) = .ok i []

/-- The trace notation of R61 (the spec's decision D13): reading back a line written for an operation gives the operation. How the
model separates words is log 19. -/
def Obligations.TraceLineRoundTrip : Prop :=
  ∀ (i : Instr) (line : List Char), i.wellFormed = true → writeLine i = some line → readLine line = some i

/-- Words written out from the encodings of R56 and R50 (vectors X1, P1) and what the model's decoder makes of them. That a word of 8
bits is `sel` with zeros on the other ports, one of 32 bits `CHK`, and one of 56 bits FRAME and not `VAL` or `DEC`, which have the
same pattern, is the model's choice (log 7); so is the request that names `DEC` (log 5). -/
def Obligations.SpecWordsDecode : Prop :=
  decodeTableWord 8 0b100 = some .rst ∧ decodeTableWord 8 0b000 = some .nop ∧
  decodeTableWord 8 0b010 = some (.enc 0 0) ∧ decodeTableWord 8 0b001 = some (.rxb 0) ∧
  decodeTableWord 32 0x00000FFF = some (.chk 0 4095) ∧
  decodeTableWord 56 0xAA00000FFFF055 = some (.frame 0xAA00000FFFF055) ∧
  decode ⟨.dec, [0xAA, 0x08, 0x00, 0x08, 0x00, 0x00, 0x55]⟩ =
    .ok (.dec 0xAA 0x08 0x00 0x08 0x00 0x00 0x55) []

/-- A step runs the operation the next request decodes to, in the state where that request is taken (R31); nothing asked for is `NOP`
(R163). The queue of requests is the model's own (log 1). So is the last clause, that bytes which decode to nothing are refused:
they are no value of the ports and no operand of the right width (log 3), or an empty burst (log 15), and no rule speaks of them. -/
def Obligations.StepRunsTheDecodedOperation : Prop :=
  (∀ (s : State) (r : Request) (later rest : List Request) (i : Instr),
    s.pending = r :: later → decode r = .ok i rest → step s = exec i { s with pending := rest ++ later }) ∧
  (∀ s : State, s.pending = [] → step s = exec .nop s) ∧
  (∀ (s : State) (r : Request) (later : List Request) (e : DecodeError),
    s.pending = r :: later → decode r = .bad e → step s = .refused (.noSuchRequest e))

/-- `sel = 011`: both operations happen, in two steps, and the order does not matter but for which outputs are shown last (R56,
R41; the spec's decision D20; `ENC` first is the model's choice, log 4). -/
def Obligations.EncAndRxbTogetherTakeTwoSteps : Prop :=
  ∀ (s : State) (a1 a2 : Angle) (b : Byte) (later : List Request),
    s.pending = portRequest 0b011 a1 a2 b :: later → ∃ t u : State,
      runSteps 2 s = .next t ∧ execAll [.rxb b, .enc a1 a2] { s with pending := later } = .next u ∧
      { t with outs := [] } = { u with outs := [] } ∧
      execAll [.enc a1 a2, .rxb b] { s with pending := later } = .next t

/-- The result of a trace is the result of executing its operations one at a time in trace order, one step each (R31, R40; that the
trace is queued in the state is the model's choice, log 1). -/
def Obligations.TraceRunsInOrder : Prop :=
  ∀ (is : List Instr) (s : State), (∀ i ∈ is, i.wellFormed = true) → s.pending = [] →
    runSteps is.length (loadTrace s is) = execAll is s

/-! ## Invariants -/

/-- Every step keeps the invariant: R15's three clauses, the counter in its width (R18), TXS made of whole frames (R33), one event a
step at most (R17). The spec marks R15's clauses as derived. -/
def Obligations.StepKeepsTheInvariant : Prop :=
  ∀ s t : State, s.Inv → step s = .next t → t.Inv

/-- The invariants hold right after reset, for every width of the counter (R25). -/
def Obligations.ResetMeetsTheInvariants : Prop :=
  (∀ c : Config, 0 < c.discardW →
    (State.resetWith c).Inv ∧ ReadingsWereReceived (State.resetWith c) ∧ WindowsDisjoint (State.resetWith c)) ∧
  State.reset.Inv

/-- Soundness of reception: every Reading in RDS came in as a whole frame of consecutive bytes (from R94 and R104; the record of the
stream consumed is the model's, log 16). -/
def Obligations.EmittedReadingsWereReceived : Prop :=
  ∀ s t : State, s.Inv → ReadingsWereReceived s → step s = .next t → ReadingsWereReceived t

/-- "The emitted windows never overlap": the stream consumed is cut into gaps, the frames of the Readings in emission order, each a
stretch of its own, and a rest in which the window still open lies (R111, marked as derived by the spec; the record of the stream
consumed is the model's, log 16). -/
def Obligations.EmittedWindowsAreDisjoint : Prop :=
  ∀ s t : State, s.Inv → WindowsDisjoint s → step s = .next t → WindowsDisjoint t

/-! ## Rules said alone -/

/-- R33: `ENC` appends exactly the seven bytes of its frame to TXS, `frame[0]` first; no other operation writes TXS, `RST` among
them. -/
def Obligations.OnlyEncWritesTxs : Prop :=
  (∀ (a1 a2 : Angle) (s : State), ∃ t : State, exec (.enc a1 a2) s = .next t ∧
    t.txs = s.txs ++ [0xAA, hi8 a1, lo8 a1, hi8 a2, lo8 a2, checksum a1 a2, 0x55]) ∧
  (∀ (i : Instr) (s : State), isOperation i = true → (∀ a1 a2, i ≠ .enc a1 a2) →
    ∃ t : State, exec i s = .next t ∧ t.txs = s.txs)

/-- R130: every operation has a next state in every state, none faults and none is refused. -/
def Obligations.EveryOperationHasANextState : Prop :=
  ∀ (i : Instr) (s : State), isOperation i = true → ∃ t : State, exec i s = .next t

/-- A data port has a value to read in exactly the steps whose flag is 1, after every operation (R20, the spec's decision D7; that a
port without its flag gives no value at all is the model's choice, log 9). -/
def Obligations.DataPortsReadOnlyUnderTheirFlag : Prop :=
  ∀ (i : Instr) (s t : State) (o : StepOut), exec i s = .next t → o ∈ t.outs →
    ((txFramePort o).isSome = true ↔ txValid o = true) ∧
    ((rdA1Port o).isSome = true ↔ rdValid o = true) ∧ ((rdA2Port o).isSome = true ↔ rdValid o = true)

/-- R70, R71: the checksum of two angles is the XOR of their four bytes, folded in the source's order, and bit by bit; on bytes as
they stand in a frame it is the same function, either way round. -/
def Obligations.ChecksumIsTheXorOfTheAngleBytes : Prop :=
  (∀ a1 a2 : Angle,
    checksum a1 a2 = ((hi8 a1 ^^^ lo8 a1) ^^^ hi8 a2) ^^^ lo8 a2 ∧
    ∀ k, k < 8 → (checksum a1 a2).getLsbD k =
      (((a1.getLsbD (k + 8) ^^ a1.getLsbD k) ^^ a2.getLsbD (k + 8)) ^^ a2.getLsbD k)) ∧
  (∀ a1 a2 : Angle, checksum a1 a2 = chk4 (hi8 a1) (lo8 a1) (hi8 a2) (lo8 a2)) ∧
  (∀ b1 b2 b3 b4 : Byte,
    chk4 b1 b2 b3 b4 = b1 ^^^ b2 ^^^ b3 ^^^ b4 ∧ chk4 b1 b2 b3 b4 = checksum (cat16 b1 b2) (cat16 b3 b4))
end

