-- ==== Sys2Proof/Laws/State.lean ====
section
/-! SUPPORT. One lemma per field per update of the state, each true by rfl, so that no proof unfolds a record update. -/

namespace Sys2Proof.Machine

variable (s : State)

/-! ## State.begin -/

@[simp] theorem State.begin_cfg : s.begin.cfg = s.cfg := rfl
@[simp] theorem State.begin_rxState : s.begin.rxState = s.rxState := rfl
@[simp] theorem State.begin_acc : s.begin.acc = s.acc := rfl
@[simp] theorem State.begin_discardCnt : s.begin.discardCnt = s.discardCnt := rfl
@[simp] theorem State.begin_outs : s.begin.outs = [] := rfl
@[simp] theorem State.begin_rxs : s.begin.rxs = s.rxs := rfl
@[simp] theorem State.begin_txs : s.begin.txs = s.txs := rfl
@[simp] theorem State.begin_rds : s.begin.rds = s.rds := rfl
@[simp] theorem State.begin_pending : s.begin.pending = s.pending := rfl

/-! ## State.putOut -/

@[simp] theorem State.putOut_cfg (o : StepOut) : (s.putOut o).cfg = s.cfg := rfl
@[simp] theorem State.putOut_rxState (o : StepOut) : (s.putOut o).rxState = s.rxState := rfl
@[simp] theorem State.putOut_acc (o : StepOut) : (s.putOut o).acc = s.acc := rfl
@[simp] theorem State.putOut_discardCnt (o : StepOut) : (s.putOut o).discardCnt = s.discardCnt := rfl
@[simp] theorem State.putOut_outs (o : StepOut) : (s.putOut o).outs = s.outs ++ [o] := rfl
@[simp] theorem State.putOut_rxs (o : StepOut) : (s.putOut o).rxs = s.rxs := rfl
@[simp] theorem State.putOut_txs (o : StepOut) : (s.putOut o).txs = s.txs := rfl
@[simp] theorem State.putOut_rds (o : StepOut) : (s.putOut o).rds = s.rds := rfl
@[simp] theorem State.putOut_pending (o : StepOut) : (s.putOut o).pending = s.pending := rfl

/-! ## State.txPut -/

@[simp] theorem State.txPut_cfg (f : List Byte) : (s.txPut f).cfg = s.cfg := rfl
@[simp] theorem State.txPut_rxState (f : List Byte) : (s.txPut f).rxState = s.rxState := rfl
@[simp] theorem State.txPut_acc (f : List Byte) : (s.txPut f).acc = s.acc := rfl
@[simp] theorem State.txPut_discardCnt (f : List Byte) : (s.txPut f).discardCnt = s.discardCnt := rfl
@[simp] theorem State.txPut_outs (f : List Byte) : (s.txPut f).outs = s.outs := rfl
@[simp] theorem State.txPut_rxs (f : List Byte) : (s.txPut f).rxs = s.rxs := rfl
@[simp] theorem State.txPut_txs (f : List Byte) : (s.txPut f).txs = s.txs ++ f := rfl
@[simp] theorem State.txPut_rds (f : List Byte) : (s.txPut f).rds = s.rds := rfl
@[simp] theorem State.txPut_pending (f : List Byte) : (s.txPut f).pending = s.pending := rfl

/-! ## State.emitReading -/

@[simp] theorem State.emitReading_cfg (r : Reading) : (s.emitReading r).cfg = s.cfg := rfl
@[simp] theorem State.emitReading_rxState (r : Reading) : (s.emitReading r).rxState = s.rxState := rfl
@[simp] theorem State.emitReading_acc (r : Reading) : (s.emitReading r).acc = s.acc := rfl
@[simp] theorem State.emitReading_discardCnt (r : Reading) : (s.emitReading r).discardCnt = s.discardCnt := rfl
@[simp] theorem State.emitReading_outs (r : Reading) : (s.emitReading r).outs = s.outs := rfl
@[simp] theorem State.emitReading_rxs (r : Reading) : (s.emitReading r).rxs = s.rxs := rfl
@[simp] theorem State.emitReading_txs (r : Reading) : (s.emitReading r).txs = s.txs := rfl
@[simp] theorem State.emitReading_rds (r : Reading) : (s.emitReading r).rds = s.rds ++ [r] := rfl
@[simp] theorem State.emitReading_pending (r : Reading) : (s.emitReading r).pending = s.pending := rfl

/-! ## State.countDiscard -/

@[simp] theorem State.countDiscard_cfg : s.countDiscard.cfg = s.cfg := rfl
@[simp] theorem State.countDiscard_rxState : s.countDiscard.rxState = s.rxState := rfl
@[simp] theorem State.countDiscard_acc : s.countDiscard.acc = s.acc := rfl
@[simp] theorem State.countDiscard_discardCnt : s.countDiscard.discardCnt = bumpDiscard s.cfg s.discardCnt := rfl
@[simp] theorem State.countDiscard_outs : s.countDiscard.outs = s.outs := rfl
@[simp] theorem State.countDiscard_rxs : s.countDiscard.rxs = s.rxs := rfl
@[simp] theorem State.countDiscard_txs : s.countDiscard.txs = s.txs := rfl
@[simp] theorem State.countDiscard_rds : s.countDiscard.rds = s.rds := rfl
@[simp] theorem State.countDiscard_pending : s.countDiscard.pending = s.pending := rfl

/-! ## State.setFramer -/

@[simp] theorem State.setFramer_cfg (f : Framer) : (s.setFramer f).cfg = s.cfg := rfl
@[simp] theorem State.setFramer_rxState (f : Framer) : (s.setFramer f).rxState = f.rxState := rfl
@[simp] theorem State.setFramer_acc (f : Framer) : (s.setFramer f).acc = f.acc := rfl
@[simp] theorem State.setFramer_discardCnt (f : Framer) : (s.setFramer f).discardCnt = s.discardCnt := rfl
@[simp] theorem State.setFramer_outs (f : Framer) : (s.setFramer f).outs = s.outs := rfl
@[simp] theorem State.setFramer_rxs (f : Framer) : (s.setFramer f).rxs = s.rxs := rfl
@[simp] theorem State.setFramer_txs (f : Framer) : (s.setFramer f).txs = s.txs := rfl
@[simp] theorem State.setFramer_rds (f : Framer) : (s.setFramer f).rds = s.rds := rfl
@[simp] theorem State.setFramer_pending (f : Framer) : (s.setFramer f).pending = s.pending := rfl

/-! ## State.consume -/

@[simp] theorem State.consume_cfg (b : Byte) : (s.consume b).cfg = s.cfg := rfl
@[simp] theorem State.consume_rxState (b : Byte) : (s.consume b).rxState = s.rxState := rfl
@[simp] theorem State.consume_acc (b : Byte) : (s.consume b).acc = s.acc := rfl
@[simp] theorem State.consume_discardCnt (b : Byte) : (s.consume b).discardCnt = s.discardCnt := rfl
@[simp] theorem State.consume_outs (b : Byte) : (s.consume b).outs = s.outs := rfl
@[simp] theorem State.consume_rxs (b : Byte) : (s.consume b).rxs = s.rxs ++ [b] := rfl
@[simp] theorem State.consume_txs (b : Byte) : (s.consume b).txs = s.txs := rfl
@[simp] theorem State.consume_rds (b : Byte) : (s.consume b).rds = s.rds := rfl
@[simp] theorem State.consume_pending (b : Byte) : (s.consume b).pending = s.pending := rfl

/-! ## State.setPending -/

@[simp] theorem State.setPending_cfg (p : List Request) : (s.setPending p).cfg = s.cfg := rfl
@[simp] theorem State.setPending_rxState (p : List Request) : (s.setPending p).rxState = s.rxState := rfl
@[simp] theorem State.setPending_acc (p : List Request) : (s.setPending p).acc = s.acc := rfl
@[simp] theorem State.setPending_discardCnt (p : List Request) : (s.setPending p).discardCnt = s.discardCnt := rfl
@[simp] theorem State.setPending_outs (p : List Request) : (s.setPending p).outs = s.outs := rfl
@[simp] theorem State.setPending_rxs (p : List Request) : (s.setPending p).rxs = s.rxs := rfl
@[simp] theorem State.setPending_txs (p : List Request) : (s.setPending p).txs = s.txs := rfl
@[simp] theorem State.setPending_rds (p : List Request) : (s.setPending p).rds = s.rds := rfl
@[simp] theorem State.setPending_pending (p : List Request) : (s.setPending p).pending = p := rfl

/-! ## The framer of a state -/

@[simp] theorem State.framer_rxState : s.framer.rxState = s.rxState := rfl
@[simp] theorem State.framer_acc : s.framer.acc = s.acc := rfl
@[simp] theorem State.setFramer_framer (f : Framer) : (s.setFramer f).framer = f := rfl
@[simp] theorem Framer.idle_rxState : Framer.idle.rxState = .seekStart := rfl
@[simp] theorem Framer.idle_acc : Framer.idle.acc = [] := rfl

/-! ## State.recordEvent -/

@[simp] theorem State.recordEvent_quiet : s.recordEvent .quiet = s := rfl
@[simp] theorem State.recordEvent_emit (r : Reading) : s.recordEvent (.emit r) = s.emitReading r := rfl
@[simp] theorem State.recordEvent_discard : s.recordEvent .discard = s.countDiscard := rfl

@[simp] theorem State.recordEvent_cfg (e : Event) : (s.recordEvent e).cfg = s.cfg := by cases e <;> rfl
@[simp] theorem State.recordEvent_rxState (e : Event) : (s.recordEvent e).rxState = s.rxState := by cases e <;> rfl
@[simp] theorem State.recordEvent_acc (e : Event) : (s.recordEvent e).acc = s.acc := by cases e <;> rfl
@[simp] theorem State.recordEvent_outs (e : Event) : (s.recordEvent e).outs = s.outs := by cases e <;> rfl
@[simp] theorem State.recordEvent_rxs (e : Event) : (s.recordEvent e).rxs = s.rxs := by cases e <;> rfl
@[simp] theorem State.recordEvent_txs (e : Event) : (s.recordEvent e).txs = s.txs := by cases e <;> rfl
@[simp] theorem State.recordEvent_pending (e : Event) : (s.recordEvent e).pending = s.pending := by cases e <;> rfl

/-! ## rstStep -/

@[simp] theorem rstStep_cfg : (rstStep s).cfg = s.cfg := rfl
@[simp] theorem rstStep_rxState : (rstStep s).rxState = .seekStart := rfl
@[simp] theorem rstStep_acc : (rstStep s).acc = [] := rfl
@[simp] theorem rstStep_discardCnt : (rstStep s).discardCnt = 0 := rfl
@[simp] theorem rstStep_outs : (rstStep s).outs = s.outs ++ [quietOut] := rfl
@[simp] theorem rstStep_rxs : (rstStep s).rxs = s.rxs := rfl
@[simp] theorem rstStep_txs : (rstStep s).txs = s.txs := rfl
@[simp] theorem rstStep_rds : (rstStep s).rds = s.rds := rfl
@[simp] theorem rstStep_pending : (rstStep s).pending = s.pending := rfl

/-! ## encStep and outStep -/

@[simp] theorem encStep_cfg (a1 a2 : Angle) : (encStep a1 a2 s).cfg = s.cfg := rfl
@[simp] theorem encStep_rxState (a1 a2 : Angle) : (encStep a1 a2 s).rxState = s.rxState := rfl
@[simp] theorem encStep_acc (a1 a2 : Angle) : (encStep a1 a2 s).acc = s.acc := rfl
@[simp] theorem encStep_discardCnt (a1 a2 : Angle) : (encStep a1 a2 s).discardCnt = s.discardCnt := rfl
@[simp] theorem encStep_outs (a1 a2 : Angle) : (encStep a1 a2 s).outs = s.outs ++ [frameOut (encodeFrame a1 a2)] := rfl
@[simp] theorem encStep_rxs (a1 a2 : Angle) : (encStep a1 a2 s).rxs = s.rxs := rfl
@[simp] theorem encStep_txs (a1 a2 : Angle) : (encStep a1 a2 s).txs = s.txs ++ encodeFrame a1 a2 := rfl
@[simp] theorem encStep_rds (a1 a2 : Angle) : (encStep a1 a2 s).rds = s.rds := rfl
@[simp] theorem encStep_pending (a1 a2 : Angle) : (encStep a1 a2 s).pending = s.pending := rfl
@[simp] theorem outStep_cfg (o : StepOut) : (outStep o s).cfg = s.cfg := rfl
@[simp] theorem outStep_rxState (o : StepOut) : (outStep o s).rxState = s.rxState := rfl
@[simp] theorem outStep_acc (o : StepOut) : (outStep o s).acc = s.acc := rfl
@[simp] theorem outStep_discardCnt (o : StepOut) : (outStep o s).discardCnt = s.discardCnt := rfl
@[simp] theorem outStep_outs (o : StepOut) : (outStep o s).outs = s.outs ++ [o] := rfl
@[simp] theorem outStep_rxs (o : StepOut) : (outStep o s).rxs = s.rxs := rfl
@[simp] theorem outStep_txs (o : StepOut) : (outStep o s).txs = s.txs := rfl
@[simp] theorem outStep_rds (o : StepOut) : (outStep o s).rds = s.rds := rfl
@[simp] theorem outStep_pending (o : StepOut) : (outStep o s).pending = s.pending := rfl

end Sys2Proof.Machine
end

