-- ==== Sys2Proof/Laws/Ops.lean ====
section
/-! SUPPORT. What each shared operation can do, said once, for proofs to cite instead of unfolding it. -/

namespace Sys2Proof.Machine

/-! ## Slicing and joining (R7) -/

@[simp] theorem hi8_cat16 (h l : Byte) : hi8 (cat16 h l) = h := by
  ext i hi
  simp only [hi8, cat16, BitVec.getElem_extractLsb', BitVec.getLsbD_or, BitVec.getLsbD_shiftLeft, BitVec.getLsbD_setWidth]
  simp [show 8 + i < 16 by omega, show i < 16 by omega, BitVec.getLsbD_eq_getElem hi]

@[simp] theorem lo8_cat16 (h l : Byte) : lo8 (cat16 h l) = l := by
  ext i hi
  simp [lo8, cat16, BitVec.getElem_extractLsb', hi, show i < 16 by omega]

@[simp] theorem cat16_hi8_lo8 (a : Angle) : cat16 (hi8 a) (lo8 a) = a := by
  ext i hi
  simp only [hi8, lo8, cat16, BitVec.getElem_or, BitVec.getElem_shiftLeft, BitVec.getElem_setWidth,
    BitVec.getLsbD_extractLsb', Nat.zero_add]
  by_cases h : i < 8
  · simp [h, BitVec.getLsbD_eq_getElem hi]
  · simp [h, show i - 8 < 8 by omega, show 8 + (i - 8) = i by omega, BitVec.getLsbD_eq_getElem hi]

/-- `cat16` is concatenation of bit vectors. -/
theorem cat16_eq_append (h l : Byte) : cat16 h l = h ++ l := by
  apply BitVec.eq_of_getLsbD_eq
  intro i hi
  have happ : (h ++ l).getLsbD i = if i < 8 then l.getLsbD i else h.getLsbD (i - 8) := BitVec.getLsbD_append
  refine Eq.trans ?_ happ.symm
  by_cases hlt : i < 8
  · simp [cat16, hlt, hi]
  · have hl : l.getLsbD i = false := BitVec.getLsbD_of_ge _ _ (by omega)
    simp [cat16, hlt, hi, hl]

/-! ## Frames and windows -/

@[simp] theorem encodeFrame_length (a1 a2 : Angle) : (encodeFrame a1 a2).length = 7 := rfl

/-- Only seven bytes are accepted (R90). -/
theorem validate_some_length {w : List Byte} {r : Reading} (h : validate w = some r) : w.length = 7 := by
  unfold validate at h
  split at h
  · rfl
  · cases h

@[simp] theorem window_length (acc : List Byte) (b : Byte) : (window acc b).length = acc.length + 2 := by
  simp [window]

@[simp] theorem window_tail (acc : List Byte) (b : Byte) : (window acc b).tail = acc ++ [b] := rfl

/-! ## Re-seek (R106) -/

@[simp] theorem seek_nil : seek [] = Framer.idle := rfl

@[simp] theorem seek_start (bs : List Byte) : seek (START :: bs) = ⟨.collecting, bs⟩ := by simp [seek]

theorem seek_skip {b : Byte} (h : b ≠ START) (bs : List Byte) : seek (b :: bs) = seek bs := by simp [seek, h]

/-- What a re-seek can find: no START at all, or the first START with the bytes after it. -/
theorem seek_cases (bs : List Byte) :
    (START ∉ bs ∧ seek bs = Framer.idle) ∨
    (∃ before after, bs = before ++ START :: after ∧ START ∉ before ∧ seek bs = ⟨.collecting, after⟩) := by
  induction bs with
  | nil => exact .inl ⟨by simp, rfl⟩
  | cons b bs ih =>
    by_cases hb : b = START
    · subst hb
      exact .inr ⟨[], bs, rfl, by simp, seek_start bs⟩
    · rw [seek_skip hb]
      rcases ih with ⟨hn, hs⟩ | ⟨before, after, rfl, hn, hs⟩
      · exact .inl ⟨by simp [hn, Ne.symm hb], hs⟩
      · exact .inr ⟨b :: before, after, rfl, by simp [hn, Ne.symm hb], hs⟩

/-! ## One framer step (R109) -/

/-- What one byte can do to the framer. -/
theorem framerStep_cases (f : Framer) (b : Byte) :
    (f.rxState = .seekStart ∧ b ≠ START ∧ framerStep f b = (f, .quiet)) ∨
    (f.rxState = .seekStart ∧ b = START ∧ framerStep f b = (⟨.collecting, []⟩, .quiet)) ∨
    (f.rxState = .collecting ∧ f.acc.length < accCap ∧ framerStep f b = (⟨.collecting, f.acc ++ [b]⟩, .quiet)) ∨
    (∃ r, f.rxState = .collecting ∧ accCap ≤ f.acc.length ∧ validate (window f.acc b) = some r ∧
      framerStep f b = (Framer.idle, .emit r)) ∨
    (f.rxState = .collecting ∧ accCap ≤ f.acc.length ∧ validate (window f.acc b) = none ∧
      framerStep f b = (seek (f.acc ++ [b]), .discard)) := by
  unfold framerStep
  cases hf : f.rxState with
  | seekStart =>
    by_cases hb : b = START
    · simp [hb]
    · simp [hb]
  | collecting =>
    by_cases hl : f.acc.length < accCap
    · simp [hl]
    · have hl' : accCap ≤ f.acc.length := by omega
      cases hv : validate (window f.acc b) with
      | some r => simp [hl, hl', hv, validateStep]
      | none => simp [hl, hl', hv, validateStep]

/-! ## A stream of bytes (R108) -/

@[simp] theorem runFramer_nil (f : Framer) : runFramer f [] = (f, []) := rfl

@[simp] theorem runFramer_cons (f : Framer) (b : Byte) (bs : List Byte) :
    runFramer f (b :: bs) =
      ((runFramer (framerStep f b).1 bs).1, (framerStep f b).2 :: (runFramer (framerStep f b).1 bs).2) := rfl

theorem runFramer_append (f : Framer) (xs ys : List Byte) :
    runFramer f (xs ++ ys) =
      ((runFramer (runFramer f xs).1 ys).1, (runFramer f xs).2 ++ (runFramer (runFramer f xs).1 ys).2) := by
  induction xs generalizing f with
  | nil => simp
  | cons x xs ih => simp [ih]

/-- While the window stays open, bytes are only collected (R103). -/
theorem runFramer_collect (bs : List Byte) : ∀ acc : List Byte, acc.length + bs.length ≤ accCap →
    runFramer ⟨.collecting, acc⟩ bs = (⟨.collecting, acc ++ bs⟩, List.replicate bs.length .quiet) := by
  induction bs with
  | nil => intro acc _; simp
  | cons b bs ih =>
    intro acc h
    simp only [List.length_cons] at h
    have hlt : acc.length < accCap := by omega
    rw [runFramer_cons]
    simp only [framerStep, hlt, if_true]
    rw [ih (acc ++ [b]) (by simp only [List.length_append, List.length_singleton]; omega)]
    simp [List.replicate_succ]

/-- At most six bytes from `(SEEK_START, [])` are a re-seek: no event (R106, R107). -/
theorem runFramer_short {bs : List Byte} (h : bs.length ≤ 6) :
    runFramer Framer.idle bs = (seek bs, List.replicate bs.length .quiet) := by
  induction bs with
  | nil => rfl
  | cons b bs ih =>
    simp only [List.length_cons] at h
    rw [runFramer_cons]
    by_cases hb : b = START
    · subst hb
      simp only [framerStep, Framer.idle_rxState, if_true]
      rw [runFramer_collect bs [] (by simp only [List.length_nil, accCap]; omega)]
      simp [List.replicate_succ]
    · simp only [framerStep, Framer.idle_rxState, hb, if_false]
      rw [ih (by omega), seek_skip hb]
      simp [List.replicate_succ]

/-! ## Steps of the state -/

/-- The framer step behind one `RXB` step, said on the state. -/
theorem rxbStep_framer (b : Byte) (s : State) : (rxbStep b s).framer = (framerStep s.framer b).1 := by
  simp only [rxbStep, State.framer]
  simp

@[simp] theorem rxbStep_cfg (b : Byte) (s : State) : (rxbStep b s).cfg = s.cfg := by simp [rxbStep]
@[simp] theorem rxbStep_txs (b : Byte) (s : State) : (rxbStep b s).txs = s.txs := by simp [rxbStep]
@[simp] theorem rxbStep_pending (b : Byte) (s : State) : (rxbStep b s).pending = s.pending := by simp [rxbStep]
@[simp] theorem rxbStep_rxs (b : Byte) (s : State) : (rxbStep b s).rxs = s.rxs ++ [b] := by simp [rxbStep]
theorem rxbStep_rxState (b : Byte) (s : State) : (rxbStep b s).rxState = (framerStep s.framer b).1.rxState := by
  simp [rxbStep]
theorem rxbStep_acc (b : Byte) (s : State) : (rxbStep b s).acc = (framerStep s.framer b).1.acc := by simp [rxbStep]
theorem rxbStep_outs (b : Byte) (s : State) :
    (rxbStep b s).outs = s.outs ++ [eventOut (framerStep s.framer b).2] := by simp [rxbStep]

@[simp] theorem rxsSteps_nil (s : State) : rxsSteps [] s = s := rfl
@[simp] theorem rxsSteps_cons (b : Byte) (bs : List Byte) (s : State) :
    rxsSteps (b :: bs) s = rxsSteps bs (rxbStep b s) := rfl

theorem rxsSteps_append (xs ys : List Byte) (s : State) :
    rxsSteps (xs ++ ys) s = rxsSteps ys (rxsSteps xs s) := by simp [rxsSteps]

/-- Whatever is kept by one `RXB` step is kept by a run of them. -/
theorem rxsSteps_induct {P : State → Prop} (hstep : ∀ b s, P s → P (rxbStep b s)) :
    ∀ bs s, P s → P (rxsSteps bs s)
  | [], _, h => h
  | b :: bs, s, h => rxsSteps_induct hstep bs (rxbStep b s) (hstep b s h)

/-! ## The step -/

/-- What a step can do: run the decoded operation, or refuse bytes that are no request. -/
theorem step_cases (s : State) :
    (∃ i rest, nextDecoded s = .ok i rest ∧ step s = exec i (takeRequest s rest)) ∨
    (∃ e, nextDecoded s = .bad e ∧ step s = .refused (.noSuchRequest e)) := by
  unfold step
  cases h : nextDecoded s with
  | ok i rest => exact .inl ⟨i, rest, rfl, rfl⟩
  | bad e => exact .inr ⟨e, rfl, rfl⟩

end Sys2Proof.Machine
end

