-- ==== Sys2Proof/Laws/PerInstr.lean ====
section
/-! SUPPORT. Facts about each operation as syntax, one lemma per constructor of Instr. Family Width: the bytes of an operation's
request are as many as its format's ports or operand have (spec/10_state.md R21, spec/20_memory.md R38). -/

namespace Sys2Proof.Laws.Width

open Machine

/-- How many bytes a request of a format has; a burst has as many as it has bytes, at least one. -/
def widthOk : Format → Nat → Bool
  | .sel3, n => n == 6
  | .chk, n => n == 4
  | .val, n => n == 7
  | .dec, n => n == 7
  | .frame56, n => n == 7
  | .rxs, n => n != 0
  | .loop, n => n == 4

/-- The request of a well-formed operation has the width of its format. -/
def Statement (i : Instr) : Prop :=
  i.wellFormed = true → widthOk (encode i).fmt (encode i).bytes.length = true

theorem frame (w : BitVec 56) : Statement (.frame w) := fun _ => rfl
theorem chk (a1 a2 : Angle) : Statement (.chk a1 a2) := fun _ => rfl
theorem enc (a1 a2 : Angle) : Statement (.enc a1 a2) := fun _ => rfl
theorem val (w0 w1 w2 w3 w4 w5 w6 : Byte) : Statement (.val w0 w1 w2 w3 w4 w5 w6) := fun _ => rfl
theorem dec (f0 f1 f2 f3 f4 f5 f6 : Byte) : Statement (.dec f0 f1 f2 f3 f4 f5 f6) := fun _ => rfl
theorem rxb (b : Byte) : Statement (.rxb b) := fun _ => rfl
theorem rst : Statement .rst := fun _ => rfl
theorem nop : Statement .nop := fun _ => rfl
theorem rxs (bs : List Byte) : Statement (.rxs bs) := fun h => by
  cases bs with
  | nil => simp [Instr.wellFormed] at h
  | cons b bs => simp [encode, widthOk]
theorem loop (a1 a2 : Angle) : Statement (.loop a1 a2) := fun _ => rfl

end Sys2Proof.Laws.Width
end

