-- ==== Sys2Proof/Laws/Steps.lean ====
section
/-! SUPPORT. Runs of steps, emitted windows in the stream, and digits of the trace notation. -/

namespace Sys2Proof.Machine

@[simp] theorem runSteps_zero (s : State) : runSteps 0 s = .next s := rfl

/-- A run goes on from the state a step answers. -/
theorem runSteps_succ {n : Nat} {s t : State} (h : step s = .next t) : runSteps (n + 1) s = runSteps n t := by
  simp [runSteps, h]

@[simp] theorem execAll_nil (s : State) : execAll [] s = .next s := rfl

/-- A trace goes on from the state an operation answers. -/
theorem execAll_cons {i : Instr} {is : List Instr} {s t : State} (h : exec i s = .next t) :
    execAll (i :: is) s = execAll is t := by
  simp [execAll, h]

/-- If a step answers a state, it is the state some operation answers (R31). -/
theorem step_next {s t : State} (h : step s = .next t) :
    ∃ i rest, nextDecoded s = .ok i rest ∧ exec i (takeRequest s rest) = .next t := by
  rcases step_cases s with ⟨i, rest, hd, he⟩ | ⟨e, _, he⟩
  · exact ⟨i, rest, hd, by rw [← he, h]⟩
  · rw [h] at he; cases he

/-! ## Windows in the stream (R111) -/

@[simp] theorem gapsAndFrames_nil : gapsAndFrames [] [] = [] := rfl

/-- One more emitted window at the end of the stream. -/
theorem gapsAndFrames_snoc {gaps : List (List Byte)} {rs : List Reading} (h : gaps.length = rs.length)
    (gap : List Byte) (r : Reading) :
    gapsAndFrames (gaps ++ [gap]) (rs ++ [r]) = gapsAndFrames gaps rs ++ (gap ++ encodeFrame r.a1 r.a2) := by
  simp [gapsAndFrames, List.zipWith_append h]

/-! ## Digits (R61) -/

/-- Reading a written digit gives its value back. -/
theorem digitValue_digitChar {base d : Nat} (hb : base ≤ 16) (hd : d < base) : digitValue base (digitChar d) = some d := by
  have all : ∀ base, base < 17 → ∀ d, d < base → digitValue base (digitChar d) = some d := by decide
  exact all base (by omega) d hd

end Sys2Proof.Machine
end

