-- ==== Sys2Proof/Tests/Slice0.lean ====
section
/-! SUPPORT. The model's own tests. Expected values are the spec's: worked examples X1 to X6 and vectors V1 to V7, S1 to S11, P1
to P4 of spec/95_test_vectors.md, and the tables of spec/30_encoding.md. After them, for every statement with hypotheses, a
witness that meets them. -/

namespace Sys2Proof.Tests

open Sys2Proof.Machine

/-- A state with a given framer and counter, everything else as after reset. -/
def at_ (rx : RxState) (acc : List Byte) (cnt : Nat) : State :=
  { State.reset with rxState := rx, acc := acc, discardCnt := cnt }

/-- The state an operation answers, if it answers one. -/
def after (i : Instr) (s : State) : Option State :=
  match exec i s with
  | .next t => some t
  | .fault _ => none
  | .refused _ => none

/-- Framer, counter and outputs after an operation. -/
def seen (i : Instr) (s : State) : Option (Framer × Nat × List StepOut) :=
  (after i s).map (fun t => (t.framer, t.discardCnt, t.outs))

/-- The outputs a query shows. -/
def answer (r : Result) : List StepOut := [⟨none, none, false, some r⟩]

/-! ## Well-formedness -/

theorem test_empty_burst_is_ill_formed : (Instr.rxs []).wellFormed = false := by decide
theorem test_burst_is_well_formed : (Instr.rxs [0xAA]).wellFormed = true := by decide

/-! ## Decoding, words written out from the spec -/

-- R56, R50: one word for every row of the table
theorem test_decode_rst : decodeTableWord 8 0b100 = some .rst := by decide
theorem test_decode_rst_ignores_requests : decodeTableWord 8 0b111 = some .rst := by decide
theorem test_decode_nop : decodeTableWord 8 0b000 = some .nop := by decide
theorem test_decode_enc :
    decode ⟨.sel3, [0b010, 0x03, 0xE8, 0x0B, 0xB8, 0x00]⟩ = .ok (.enc 1000 3000) [] := by decide
theorem test_decode_rxb :
    decode ⟨.sel3, [0b001, 0x00, 0x00, 0x00, 0x00, 0xAA]⟩ = .ok (.rxb 0xAA) [] := by decide
theorem test_decode_enc_and_rxb :
    decode ⟨.sel3, [0b011, 0x00, 0x01, 0x00, 0x02, 0x55]⟩ =
      .ok (.enc 1 2) [⟨.sel3, [0b001, 0x00, 0x01, 0x00, 0x02, 0x55]⟩] := by decide
theorem test_decode_chk : decodeTableWord 32 0x12345678 = some (.chk 0x1234 0x5678) := by decide
theorem test_decode_frame :
    decodeTableWord 56 0xAA080008000055 = some (.frame 0xAA080008000055) := by decide
theorem test_decode_val :
    decode ⟨.val, [0xAA, 0x01, 0x02, 0x03, 0x04, 0x00, 0x55]⟩ =
      .ok (.val 0xAA 0x01 0x02 0x03 0x04 0x00 0x55) [] := by decide
theorem test_decode_dec :
    decode ⟨.dec, [0xAB, 0x00, 0x00, 0x0F, 0xFF, 0xF0, 0x55]⟩ =
      .ok (.dec 0xAB 0x00 0x00 0x0F 0xFF 0xF0 0x55) [] := by decide
theorem test_decode_rxs : decode ⟨.rxs, [0xAA, 0x13]⟩ = .ok (.rxs [0xAA, 0x13]) [] := by decide
theorem test_decode_loop : decode ⟨.loop, [0x00, 0x00, 0x0F, 0xFF]⟩ = .ok (.loop 0 4095) [] := by decide
-- what no environment can present
theorem test_reject_wide_sel : decode ⟨.sel3, [8, 0, 0, 0, 0, 0]⟩ = .bad .selTooWide := by decide
theorem test_reject_short_ports : decode ⟨.sel3, [4]⟩ = .bad .wrongWidth := by decide
theorem test_reject_long_window : decode ⟨.val, [0, 0, 0, 0, 0, 0, 0, 0]⟩ = .bad .wrongWidth := by decide
theorem test_reject_empty_burst : decode ⟨.rxs, []⟩ = .bad .emptyBurst := by decide
-- the host's fetch: the first step after reset runs the word
theorem test_first_step_runs_the_word :
    (match step (State.reset.withFetchWord 8 0b001) with
      | .next t => some t.rxs
      | .fault _ => none
      | .refused _ => none) = some [0x00] := by decide

/-! ## Single operations -/

-- V1
theorem test_chk_source_example :
    seen (.chk 0 4095) State.reset = some (Framer.idle, 0, answer (.byte 0xF0)) := by decide
theorem test_chk_out_of_domain :
    seen (.chk 0xFFFF 0x1234) State.reset = some (Framer.idle, 0, answer (.byte 0x26)) := by decide
-- V2, in state COLL [00 01], cnt 3
theorem test_enc_source_example :
    (after (.enc 0 4095) (at_ .collecting [0x00, 0x01] 3)).map (fun t => (t.txs, t.framer, t.discardCnt)) =
      some ([0xAA, 0x00, 0x00, 0x0F, 0xFF, 0xF0, 0x55], ⟨.collecting, [0x00, 0x01]⟩, 3) := by decide
theorem test_enc_does_not_mask :
    (after (.enc 0xFFFF 0x1234) State.reset).map (fun t => t.outs.map (fun o => o.tx)) =
      some [some [0xAA, 0xFF, 0xFF, 0x12, 0x34, 0x26, 0x55]] := by decide
-- V3
theorem test_val_no_range_check :
    seen (.val 0xAA 0x12 0x34 0x56 0x78 0x08 0x55) State.reset =
      some (Framer.idle, 0, answer (.reading (some ⟨4660, 22136⟩))) := by decide
theorem test_val_bad_checksum :
    seen (.val 0xAA 0x01 0x02 0x03 0x04 0x00 0x55) State.reset =
      some (Framer.idle, 0, answer (.reading none)) := by decide
theorem test_dec_source_example :
    seen (.dec 0xAA 0x08 0x00 0x08 0x00 0x00 0x55) State.reset =
      some (Framer.idle, 0, answer (.reading (some ⟨2048, 2048⟩))) := by decide
theorem test_dec_wrong_start :
    seen (.dec 0xAB 0x00 0x00 0x0F 0xFF 0xF0 0x55) State.reset =
      some (Framer.idle, 0, answer (.reading none)) := by decide
theorem test_reject_causes :
    [rejectCause [0xAA, 0x01, 0x02, 0x03, 0x04, 0x00, 0x55], rejectCause [0xAA, 0x00, 0x00, 0x0F, 0xFF, 0xF0, 0x54],
      rejectCause [0xAA, 0xAA, 0x01, 0x02, 0x03, 0x04, 0x00], rejectCause [0xAB, 0x00, 0x00, 0x0F, 0xFF, 0xF0, 0x55],
      rejectCause [0xAA, 0x00, 0x00, 0x0F, 0xFF, 0xF0, 0x55]] =
    [some .chkMismatch, some .endMismatch, some .both, some .startMismatch, none] := by decide
theorem test_frame_word :
    seen (.frame 0xAA00000FFFF055) State.reset =
      some (Framer.idle, 0, answer (.reading (some ⟨0, 4095⟩))) := by decide
theorem test_frame_word_bad_checksum :
    seen (.frame 0xAA00000FFFF155) State.reset = some (Framer.idle, 0, answer (.reading none)) := by decide
-- V4
theorem test_rxb_emits :
    seen (.rxb 0x55) (at_ .collecting [0x00, 0x00, 0x0F, 0xFF, 0xF0] 0) =
      some (Framer.idle, 0, [⟨none, some ⟨0, 4095⟩, false, none⟩]) := by decide
theorem test_rxb_first_start_wins :
    seen (.rxb 0x06) (at_ .collecting [0x01, 0xAA, 0x03, 0xAA, 0x05] 0) =
      some (⟨.collecting, [0x03, 0xAA, 0x05, 0x06]⟩, 1, [⟨none, none, true, none⟩]) := by decide
-- V4 last row and V6: the counter wraps, at the default width and at width 2
theorem test_counter_wraps :
    seen (.rxb 0x00) (at_ .collecting [0, 0, 0, 0, 0] 65535) =
      some (Framer.idle, 0, [⟨none, none, true, none⟩]) := by decide
theorem test_counter_wraps_at_width_2 :
    seen (.rxb 0x00) { State.resetWith ⟨2⟩ with rxState := .collecting, acc := [0, 0, 0, 0, 0], discardCnt := 3 } =
      some (Framer.idle, 0, [⟨none, none, true, none⟩]) := by decide
-- V5
theorem test_rst_drops_the_window :
    seen .rst (at_ .collecting [0x00, 0x01, 0x00] 2) = some (Framer.idle, 0, [quietOut]) := by decide
theorem test_nop_keeps_the_window :
    seen .nop (at_ .collecting [0xAA, 0x01] 4) = some (⟨.collecting, [0xAA, 0x01]⟩, 4, [quietOut]) := by decide

/-! ## Bursts -/

-- X5, S1: discard, discard, emit (1, 2)
theorem test_rxs_source_resynchronisation :
    seen (.rxs [0xAA, 0xAA, 0x01, 0x02, 0x03, 0x04, 0x00, 0x55, 0xAA, 0x00, 0x01, 0x00, 0x02, 0x03, 0x55]) State.reset =
      some (Framer.idle, 2, List.replicate 6 quietOut ++ [⟨none, none, true, none⟩, ⟨none, none, true, none⟩] ++
        List.replicate 6 quietOut ++ [⟨none, some ⟨1, 2⟩, false, none⟩]) := by decide
-- S6: a false acceptance swallows a true frame
theorem test_rxs_false_acceptance :
    (after (.rxs [0xAA, 0xAB, 0xAA, 0x00, 0x00, 0x01, 0x55, 0x54, 0x55]) State.reset).map (fun t => (t.framer, t.rds)) =
      some (Framer.idle, [⟨43946, 0⟩]) := by decide
-- P1
theorem test_loop_returns_the_reading :
    (after (.loop 2048 2048) State.reset).map (fun t => (t.rds, t.txs, t.framer)) =
      some ([⟨2048, 2048⟩], [0xAA, 0x08, 0x00, 0x08, 0x00, 0x00, 0x55], Framer.idle) := by decide

/-! ## Trace notation (R61) -/

theorem test_read_enc :
    readLine ['E', 'N', 'C', ' ', '0', ',', ' ', '4', '0', '9', '5', ' ', ';', 'x'] = some (.enc 0 4095) := by decide
theorem test_read_rxs :
    readLine ['R', 'X', 'S', ' ', 'A', 'A', ' ', '0', 'x', '1', '3'] = some (.rxs [0xAA, 0x13]) := by decide
theorem test_write_outcome :
    writeOutcome ⟨none, some ⟨0, 4095⟩, false, none⟩ =
      ['e', 'm', 'i', 't', ' ', '(', '0', ',', ' ', '4', '0', '9', '5', ')'] := by decide
theorem test_write_framer :
    writeFramer ⟨.collecting, [0xAA, 0x01]⟩ = ['C', 'O', 'L', 'L', ' ', '[', 'A', 'A', ' ', '0', '1', ']'] := by decide

/-! ## Witnesses: the hypotheses of each statement can be met -/

theorem witness_SingleBitErrorsAreRejected :
    (0 < 8 ∧ (encodeFrame 0 4095)[0]? = some 0xAA) ∧ (7 < 8 ∧ (encodeFrame 0 4095)[4]? = some 0xFF) ∧
    (7 < 8 ∧ (encodeFrame 0 4095)[6]? = some 0x55) := by decide
theorem witness_DecodedExactlyWhenEncoded : encodeFrame 1 2 = encodeFrame 1 2 := rfl
theorem witness_FramerFollowsItsTransitionTable_seek_skip :
    (at_ .seekStart [] 0).framer.Ok ∧ (at_ .seekStart [] 0).rxState = .seekStart ∧ (0xAB : Byte) ≠ 0xAA := by decide
theorem witness_FramerFollowsItsTransitionTable_seek_start :
    (at_ .seekStart [] 0).framer.Ok ∧ (at_ .seekStart [] 0).rxState = .seekStart ∧ (0xAA : Byte) = 0xAA := by decide
theorem witness_FramerFollowsItsTransitionTable_collect :
    (at_ .collecting [1, 2, 3, 4] 0).framer.Ok ∧ (at_ .collecting [1, 2, 3, 4] 0).rxState = .collecting ∧
    (at_ .collecting [1, 2, 3, 4] 0).acc.length < 5 := by decide
theorem witness_FramerFollowsItsTransitionTable_emit :
    (at_ .collecting [0, 0, 0x0F, 0xFF, 0xF0] 0).framer.Ok ∧
    (at_ .collecting [0, 0, 0x0F, 0xFF, 0xF0] 0).acc.length = 5 ∧
    validate (0xAA :: [0, 0, 0x0F, 0xFF, 0xF0] ++ [0x55]) = some ⟨0, 4095⟩ := by decide
theorem witness_FramerFollowsItsTransitionTable_discard_start_last :
    (at_ .collecting [1, 2, 3, 4, 5] 0).framer.Ok ∧ (at_ .collecting [1, 2, 3, 4, 5] 0).acc.length = 5 ∧
    validate (0xAA :: [1, 2, 3, 4, 5] ++ [0xAA]) = none ∧
    ([1, 2, 3, 4, 5] ++ [0xAA] : List Byte) = [1, 2, 3, 4, 5] ++ 0xAA :: [] ∧ (0xAA : Byte) ∉ ([1, 2, 3, 4, 5] : List Byte) := by
  decide
theorem witness_FramerFollowsItsTransitionTable_discard_no_start :
    (at_ .collecting [0, 0, 0x0F, 0xFF, 0xF0] 7).framer.Ok ∧
    validate (0xAA :: [0, 0, 0x0F, 0xFF, 0xF0] ++ [0x54]) = none ∧
    (0xAA : Byte) ∉ ([0, 0, 0x0F, 0xFF, 0xF0] ++ [0x54] : List Byte) := by decide
theorem witness_FramerFollowsItsTransitionTable_other :
    leavesFramer (.enc 1 2) = true ∧ ∃ t, exec (.enc 1 2) State.reset = .next t := ⟨rfl, _, rfl⟩
theorem witness_ReseekFormsAgree : ([0xAA, 2, 3, 4, 5, 6] : List Byte).length ≤ 6 := by decide
theorem witness_SlidingWindowGivesTheSameEvents : ([0xAA, 0, 0, 0, 0, 0, 0x55] : List Byte).length = 7 := by decide
theorem witness_BurstIsTheFramerOverItsBytes : CounterOk (at_ .collecting [1] 65535) := by decide
theorem witness_LoopReturnsTheReading :
    (at_ .seekStart [] 3).rxState = .seekStart ∧ (at_ .seekStart [] 3).acc = [] := by decide
theorem witness_DecAgreesWithTheFramer :
    (at_ .seekStart [] 3).framer = Framer.idle ∧ (0xAB : Byte) ≠ 0xAA ∧ (0xAA : Byte) = 0xAA := by decide
theorem witness_EventsAreSpaced_six_bytes :
    (at_ .seekStart [] 3).framer = Framer.idle ∧ ([0xAA, 0xAA, 0xAA, 0xAA, 0xAA, 0xAA] : List Byte).length ≤ 6 := by decide
theorem witness_EventsAreSpaced_emit :
    ∃ t o, exec (.rxb 0x55) (at_ .collecting [0, 0, 0x0F, 0xFF, 0xF0] 0) = .next t ∧ o ∈ t.outs ∧ rdValid o = true :=
  ⟨_, ⟨none, some ⟨0, 4095⟩, false, none⟩, rfl, by decide, rfl⟩
theorem witness_NextSoundFrameIsFound :
    State.reset.framer = Framer.idle ∧ ∀ q, q < ([0x00, 0xAA, 0x13] : List Byte).length →
      ([0x00, 0xAA, 0x13] : List Byte).length ≤ q + 6 →
      validate ((([0x00, 0xAA, 0x13] ++ encodeFrame 1001 3001).drop q).take 7) = none := by decide
theorem witness_CleanStreamIsEmittedFrameForFrame : State.reset.framer = Framer.idle := by decide
theorem witness_CutFrameCostsOneDiscard :
    State.reset.framer = Framer.idle ∧ ([0x01, 0x02] : List Byte).length ≤ 5 ∧ (0xAA : Byte) ∉ ([0x01, 0x02] : List Byte) ∧
    validate ((0xAA :: [0x01, 0x02] ++ encodeFrame 1 2).take 7) = none := by decide
theorem witness_CutFrameCostsOneDiscard_longest :
    ([1, 2, 3, 4, 5] : List Byte).length ≤ 5 ∧ (0xAA : Byte) ∉ ([1, 2, 3, 4, 5] : List Byte) ∧
    validate ((0xAA :: [1, 2, 3, 4, 5] ++ encodeFrame 1 2).take 7) = none := by decide
theorem witness_RstRestoresTheResetState :
    (∃ t, exec .rst (at_ .collecting [1] 2) = .next t) ∧ (0b111 : BitVec 3).getLsbD 2 = true := ⟨⟨_, rfl⟩, rfl⟩
theorem witness_IdleStepsChangeNothing : (at_ .collecting [0xAA, 0x01] 4).pending = [] := by decide
theorem witness_CodecOutputsIgnoreTheState :
    leavesFramer (.chk 1 2) = true ∧ (∃ t, exec (.chk 1 2) State.reset = .next t) ∧
    (∃ t, exec (.chk 1 2) (at_ .collecting [1] 2) = .next t) := ⟨rfl, ⟨_, rfl⟩, ⟨_, rfl⟩⟩
theorem witness_CounterIsReadByNothing : SameButCounter State.reset { State.reset with cfg := ⟨2⟩, discardCnt := 3 } := by
  decide
theorem witness_EachOperationWritesOnlyItsStreams :
    (∃ t, exec (.loop 1 2) State.reset = .next t) ∧ (∃ t, exec .nop State.reset = .next t) ∧ leavesFramer .nop = true :=
  ⟨⟨_, rfl⟩, ⟨_, rfl⟩, rfl⟩
theorem witness_NoOperationEverStops :
    State.reset.pending = [] ∧
    (loadTrace State.reset [.rxs [0xAA]]).pending = encode (.rxs [0xAA]) :: [] ∧ (Instr.rxs [0xAA]).wellFormed = true ∧
    (State.reset.setPending [portRequest 0b111 1 2 3]).pending = portRequest 0b111 1 2 3 :: [] := by decide
theorem witness_DecodeEncodeRoundTrip : (Instr.rxs [0x55]).wellFormed = true := by decide
theorem witness_EncodeDecodeRoundTrip :
    decode ⟨.rxs, [0x55]⟩ = .ok (.rxs [0x55]) [] ∧ (⟨.rxs, [0x55]⟩ : Request).fmt ≠ .sel3 ∧
    decode ⟨.sel3, [0b110, 1, 2, 3, 4, 5]⟩ = .ok .rst [] := by decide
theorem witness_TraceLineRoundTrip :
    (Instr.rxb 0xAA).wellFormed = true ∧ writeLine (.rxb 0xAA) = some ['R', 'X', 'B', ' ', 'A', 'A'] := by decide
theorem witness_StepRunsTheDecodedOperation_runs :
    (State.reset.setPending [⟨.sel3, [1, 0, 0, 0, 0, 0x55]⟩]).pending = ⟨.sel3, [1, 0, 0, 0, 0, 0x55]⟩ :: [] ∧
    decode ⟨.sel3, [1, 0, 0, 0, 0, 0x55]⟩ = .ok (.rxb 0x55) [] := by decide
theorem witness_StepRunsTheDecodedOperation_idle : State.reset.pending = [] := by decide
theorem witness_StepRunsTheDecodedOperation_refuses :
    (State.reset.setPending [⟨.rxs, []⟩]).pending = ⟨.rxs, []⟩ :: [] ∧ decode ⟨.rxs, []⟩ = .bad .emptyBurst := by decide
theorem witness_EncAndRxbTogetherTakeTwoSteps :
    (State.reset.setPending [portRequest 0b011 1 2 0xAA]).pending = portRequest 0b011 1 2 0xAA :: [] := by decide
theorem witness_TraceRunsInOrder :
    (∀ i ∈ [Instr.rst, .rxb 0xAA, .loop 1 2], i.wellFormed = true) ∧ State.reset.pending = [] := by decide

/-- A state in the middle of a window, with one Reading received and a frame sent, and the next byte waiting. -/
def busy : State :=
  { State.reset with
    rxState := .collecting
    acc := [0x00]
    discardCnt := 2
    rxs := encodeFrame 1 2 ++ [0xAA, 0x00]
    txs := encodeFrame 3 4
    rds := [⟨1, 2⟩]
    pending := [portRequest 0b001 0 0 0xAA] }

theorem busy_inv : busy.Inv :=
  ⟨by decide, fun _ => ⟨encodeFrame 1 2, by decide⟩, by decide, ⟨[⟨3, 4⟩], by decide⟩, by decide⟩
theorem busy_steps : ∃ t, step busy = .next t := ⟨_, rfl⟩
theorem witness_StepKeepsTheInvariant : busy.Inv ∧ ∃ t, step busy = .next t := ⟨busy_inv, busy_steps⟩
theorem witness_PortsAndCodingsLoseNothing : busy.Inv := busy_inv
theorem witness_PortsAndCodingsLoseNothing_emit :
    (at_ .collecting [0, 0, 0x0F, 0xFF, 0xF0] 0).rxState = .collecting ∧
    (at_ .collecting [0, 0, 0x0F, 0xFF, 0xF0] 0).acc = [0, 0, 0x0F, 0xFF, 0xF0] ∧
    validate [0xAA, 0, 0, 0x0F, 0xFF, 0xF0, 0x55] = some ⟨0, 4095⟩ := by decide
theorem witness_ResetMeetsTheInvariants : 0 < (⟨1⟩ : Config).discardW := by decide
theorem witness_EmittedReadingsWereReceived :
    busy.Inv ∧ ReadingsWereReceived busy ∧ ∃ t, step busy = .next t :=
  ⟨busy_inv, fun r hr => by
    have hr' : r = ⟨1, 2⟩ := by simpa [busy] using hr
    subst hr'
    exact ⟨[], [0xAA, 0x00], by decide⟩, busy_steps⟩
theorem witness_EmittedWindowsAreDisjoint : busy.Inv ∧ WindowsDisjoint busy ∧ ∃ t, step busy = .next t :=
  ⟨busy_inv, ⟨[[]], [0xAA, 0x00], by decide, by decide, fun _ => ⟨[], by decide⟩⟩, busy_steps⟩
theorem witness_OnlyEncWritesTxs : isOperation .rst = true ∧ ∀ a1 a2, Instr.rst ≠ .enc a1 a2 := ⟨rfl, fun _ _ h => by cases h⟩
theorem witness_EveryOperationHasANextState : isOperation (.rxb 0xAA) = true := rfl
theorem witness_DataPortsReadOnlyUnderTheirFlag :
    ∃ t, exec (.enc 1 2) State.reset = .next t ∧ frameOut (encodeFrame 1 2) ∈ t.outs := ⟨_, rfl, by decide⟩

end Sys2Proof.Tests
end

namespace Sys2Proof.Machine

/-! ## Seven bytes as a 56-bit word, and the window test on them (R50, R51, R63, R90) -/

/-- A slice of a flattened word, said on a word whose width is a sum of bytes, where the library's append lemmas apply. -/
theorem wireByte_flatten7 (b0 b1 b2 b3 b4 b5 b6 : Byte) (i : Nat) :
    wireByte (flatten7 b0 b1 b2 b3 b4 b5 b6) i =
      BitVec.extractLsb' (n := 8 + 8 + 8 + 8 + 8 + 8 + 8) (48 - 8 * i) 8 (b0 ++ b1 ++ b2 ++ b3 ++ b4 ++ b5 ++ b6) := rfl

/-- Reading the wire bytes of a flattened word gives the bytes back. -/
@[simp] theorem wireBytes_flatten7 (b0 b1 b2 b3 b4 b5 b6 : Byte) :
    wireBytes (flatten7 b0 b1 b2 b3 b4 b5 b6) = [b0, b1, b2, b3, b4, b5, b6] := by
  simp only [wireBytes, wireByte_flatten7, BitVec.extractLsb'_append_eq_of_le, BitVec.extractLsb'_append_eq_of_add_le,
    BitVec.extractLsb'_eq_self, Nat.reduceLeDiff, Nat.reduceMul, Nat.reduceSub]

/-- Flattening the wire bytes of a word gives the word back. -/
theorem flatten7_wireBytes (w : BitVec 56) :
    flatten7 (wireByte w 0) (wireByte w 1) (wireByte w 2) (wireByte w 3) (wireByte w 4) (wireByte w 5) (wireByte w 6) =
      w := by
  have join (start len : Nat) :
      w.extractLsb' (start + 8) len ++ w.extractLsb' start 8 = w.extractLsb' start (len + 8) :=
    BitVec.extractLsb'_append_extractLsb'_eq_extractLsb' rfl
  simp only [flatten7, wireByte, Nat.reduceMul, Nat.reduceSub]
  rw [join 40 8, join 32 16, join 24 24, join 16 32, join 8 40, join 0 48]
  exact BitVec.extractLsb'_eq_self

theorem flatten7_inj {b0 b1 b2 b3 b4 b5 b6 c0 c1 c2 c3 c4 c5 c6 : Byte}
    (h : flatten7 b0 b1 b2 b3 b4 b5 b6 = flatten7 c0 c1 c2 c3 c4 c5 c6) :
    [b0, b1, b2, b3, b4, b5, b6] = [c0, c1, c2, c3, c4, c5, c6] := by
  simpa only [wireBytes_flatten7] using congrArg wireBytes h

theorem flatten7_and (b0 b1 b2 b3 b4 b5 b6 c0 c1 c2 c3 c4 c5 c6 : Byte) :
    flatten7 b0 b1 b2 b3 b4 b5 b6 &&& flatten7 c0 c1 c2 c3 c4 c5 c6 =
      flatten7 (b0 &&& c0) (b1 &&& c1) (b2 &&& c2) (b3 &&& c3) (b4 &&& c4) (b5 &&& c5) (b6 &&& c6) := by
  simp only [flatten7, ← BitVec.and_append]

/-- The mask keeps the first and the last byte and clears the five between. -/
theorem and_frameMask (w : BitVec 56) :
    w &&& frameMask = flatten7 (wireByte w 0) 0 0 0 0 0 (wireByte w 6) := by
  have hmask : frameMask = flatten7 (BitVec.allOnes 8) 0#8 0#8 0#8 0#8 0#8 (BitVec.allOnes 8) := by decide
  conv_lhs => rw [← flatten7_wireBytes w, hmask, flatten7_and]
  simp only [BitVec.and_allOnes, BitVec.and_zero]
  rfl

/-- Mask and match of the FRAME row test the first and the last byte (R51). -/
theorem hasMarkers_iff (w : BitVec 56) : hasMarkers w = true ↔ wireByte w 0 = START ∧ wireByte w 6 = END := by
  have hmatch : frameMatch = flatten7 START 0 0 0 0 0 END := by decide
  rw [hasMarkers, beq_iff_eq, and_frameMask, hmatch]
  constructor
  · intro h
    simpa using flatten7_inj h
  · rintro ⟨h0, h6⟩
    rw [h0, h6]

/-- The FRAME row's test and slices are the window test on the wire bytes (R51, R63, R90). -/
theorem frameFields_eq_validate (w : BitVec 56) : frameFields w = validate (wireBytes w) := by
  simp only [frameFields, validate, wireBytes, Bool.and_eq_true, hasMarkers_iff, checksumField, beq_iff_eq, and_assoc]

/-- A frame passes the window test and gives its operands back (R84). -/
@[simp] theorem validate_encodeFrame (a1 a2 : Angle) : validate (encodeFrame a1 a2) = some ⟨a1, a2⟩ := by
  simp [validate, encodeFrame, checksum, chk4]

/-- What an accepted window must be: its Reading is sliced from bytes 1 to 4 (R90). -/
theorem validate_eq_some {w0 w1 w2 w3 w4 w5 w6 : Byte} {r : Reading}
    (h : validate [w0, w1, w2, w3, w4, w5, w6] = some r) :
    w0 = START ∧ w6 = END ∧ w5 = chk4 w1 w2 w3 w4 ∧ r = ⟨cat16 w1 w2, cat16 w3 w4⟩ := by
  simp only [validate, Option.ite_none_right_eq_some, Option.some.injEq] at h
  obtain ⟨⟨h0, h6, h5⟩, hr⟩ := h
  exact ⟨h0, h6, h5, hr.symm⟩

/-! ## What the ports and the codings show (R17, R18, R20, R21) -/

theorem toNat_discardCntPort {s : State} (h : CounterOk s) : (discardCntPort s).toNat = s.discardCnt := by
  obtain ⟨-, hlt⟩ := h
  rw [discardCntPort, BitVec.toNat_ofNat, Nat.mod_eq_of_lt hlt]

theorem toNat_fillCount {s : State} (h : s.framer.Ok) : (fillCount s).toNat = s.acc.length := by
  obtain ⟨-, hlen⟩ := h
  have hlt : s.acc.length < 2 ^ 3 := Nat.lt_of_le_of_lt hlen (by decide)
  rw [fillCount, BitVec.toNat_ofNat, Nat.mod_eq_of_lt hlt]

theorem rxStateBit_injective : Function.Injective rxStateBit := by
  intro x y h
  cases x <;> cases y
  case seekStart.seekStart => rfl
  case collecting.collecting => rfl
  all_goals exact absurd h (by decide)

theorem isSome_rdA1Port (o : StepOut) : (rdA1Port o).isSome = rdValid o := Option.isSome_map

theorem isSome_rdA2Port (o : StepOut) : (rdA2Port o).isSome = rdValid o := Option.isSome_map

/-- `tx_frame` in the step of an `ENC` is a word with the frame's bytes (R21, R82). -/
theorem txFramePort_of_tx_encodeFrame {o : StepOut} {a1 a2 : Angle} (h : o.tx = some (encodeFrame a1 a2)) :
    ∃ w, txFramePort o = some w ∧ wireBytes w = encodeFrame a1 a2 := by
  refine ⟨_, ?_, wireBytes_flatten7 ..⟩
  rw [txFramePort, h, encodeFrame]

/-- What a step sends, if it sends anything, is one frame. -/
def SendsWholeFrame (o : StepOut) : Prop := ∀ f, o.tx = some f → ∃ a1 a2, f = encodeFrame a1 a2

/-- `tx_frame` has a value exactly under `tx_valid` in a step that sends a frame or nothing. -/
theorem isSome_txFramePort {o : StepOut} (h : SendsWholeFrame o) : (txFramePort o).isSome = txValid o := by
  cases htx : o.tx with
  | none => simp [txFramePort, txValid, htx]
  | some f =>
    obtain ⟨a1, a2, rfl⟩ := h f htx
    obtain ⟨w, hw, -⟩ := txFramePort_of_tx_encodeFrame htx
    simp [hw, txValid, htx]

theorem sendsWholeFrame_of_tx_none {o : StepOut} (h : o.tx = none) : SendsWholeFrame o := by
  intro f hf
  rw [h] at hf
  cases hf

theorem sendsWholeFrame_frameOut (a1 a2 : Angle) : SendsWholeFrame (frameOut (encodeFrame a1 a2)) := by
  rintro _ ⟨⟩
  exact ⟨a1, a2, rfl⟩

@[simp] theorem eventOut_tx (e : Event) : (eventOut e).tx = none := by cases e <;> rfl

/-! ## What the steps of an operation send -/

/-- Every step shown so far sends a whole frame or nothing. -/
def OutsSendWholeFrames (s : State) : Prop := ∀ o ∈ s.outs, SendsWholeFrame o

theorem outsSendWholeFrames_begin (s : State) : OutsSendWholeFrames s.begin := by
  simp [OutsSendWholeFrames]

theorem OutsSendWholeFrames.snoc {s t : State} {o : StepOut} (h : OutsSendWholeFrames s) (ho : SendsWholeFrame o)
    (ht : t.outs = s.outs ++ [o]) : OutsSendWholeFrames t := by
  intro p hp
  rw [ht, List.mem_append, List.mem_singleton] at hp
  rcases hp with hp | rfl
  · exact h p hp
  · exact ho

theorem outsSendWholeFrames_rxbStep (b : Byte) (s : State) (h : OutsSendWholeFrames s) :
    OutsSendWholeFrames (rxbStep b s) :=
  h.snoc (sendsWholeFrame_of_tx_none (eventOut_tx _)) (rxbStep_outs b s)

theorem outsSendWholeFrames_rxsSteps (bs : List Byte) (s : State) (h : OutsSendWholeFrames s) :
    OutsSendWholeFrames (rxsSteps bs s) :=
  rxsSteps_induct outsSendWholeFrames_rxbStep bs s h

theorem outsSendWholeFrames_outStep {o : StepOut} (ho : o.tx = none) {s : State} (h : OutsSendWholeFrames s) :
    OutsSendWholeFrames (outStep o s) :=
  h.snoc (sendsWholeFrame_of_tx_none ho) (outStep_outs s o)

theorem outsSendWholeFrames_encStep (a1 a2 : Angle) {s : State} (h : OutsSendWholeFrames s) :
    OutsSendWholeFrames (encStep a1 a2 s) :=
  h.snoc (sendsWholeFrame_frameOut a1 a2) (encStep_outs s a1 a2)

/-- Every step an operation shows sends a whole frame or nothing, whatever was shown before it. -/
theorem exec_outsSendWholeFrames {i : Instr} {s t : State} (h : exec i s = .next t) : OutsSendWholeFrames t := by
  have h0 : OutsSendWholeFrames s.begin := outsSendWholeFrames_begin s
  cases i with
  | frame w => cases h; exact outsSendWholeFrames_outStep rfl h0
  | chk a1 a2 => cases h; exact outsSendWholeFrames_outStep rfl h0
  | enc a1 a2 => cases h; exact outsSendWholeFrames_encStep a1 a2 h0
  | val w0 w1 w2 w3 w4 w5 w6 => cases h; exact outsSendWholeFrames_outStep rfl h0
  | dec f0 f1 f2 f3 f4 f5 f6 => cases h; exact outsSendWholeFrames_outStep rfl h0
  | rxb b => cases h; exact outsSendWholeFrames_rxbStep b _ h0
  | rst => cases h; exact h0.snoc (sendsWholeFrame_of_tx_none rfl) (rstStep_outs s.begin)
  | nop => cases h; exact outsSendWholeFrames_outStep rfl h0
  | rxs bs => cases h; exact outsSendWholeFrames_rxsSteps bs _ h0
  | loop a1 a2 => cases h; exact outsSendWholeFrames_rxsSteps _ _ (outsSendWholeFrames_encStep a1 a2 h0)

/-! ## The step of an emitting `RXB` -/

/-- A window that is complete and validates is emitted (R104). -/
theorem framerStep_emit {f : Framer} {b : Byte} {r : Reading} (hrx : f.rxState = .collecting)
    (hlen : f.acc.length = accCap) (hv : validate (window f.acc b) = some r) :
    framerStep f b = (Framer.idle, .emit r) := by
  simp [framerStep, hrx, hlen, validateStep, hv]

end Sys2Proof.Machine

open Sys2Proof Sys2Proof.Machine in
/-- Settles O9: the counter and the fill count fit their ports by the invariant, flattening seven bytes loses none, and an
accepted window's Reading is joined from its bytes. -/
theorem portsAndCodingsLoseNothing : Obligations.PortsAndCodingsLoseNothing := by
  refine ⟨?counter, fun x y => rxStateBit_injective.eq_iff, ?frame, ?reading⟩
  case counter =>
    rintro s ⟨hframer, -, hcounter, -⟩
    exact ⟨toNat_discardCntPort hcounter, toNat_fillCount hframer⟩
  case frame =>
    intro a1 a2 s
    obtain ⟨w, hport, hbytes⟩ := txFramePort_of_tx_encodeFrame (o := frameOut (encodeFrame a1 a2)) rfl
    have hanswer : frameFields w = some ⟨a1, a2⟩ := by
      rw [frameFields_eq_validate, hbytes, validate_encodeFrame]
    exact ⟨_, _, w, rfl, by simp [hport], hbytes, rfl, by simp [hanswer, answerOut]⟩
  case reading =>
    intro w1 w2 w3 w4 w5 b s r hrx hacc hv
    have hstep : framerStep s.begin.framer b = (Framer.idle, .emit r) :=
      framerStep_emit hrx (by simp [hacc, accCap]) (by simpa [hacc, window, START] using hv)
    have houts : (rxbStep b s.begin).outs = [eventOut (.emit r)] := by simp [rxbStep_outs, hstep]
    obtain ⟨-, -, -, rfl⟩ := validate_eq_some hv
    refine ⟨_, rfl, ?_⟩
    simp [houts, eventOut, rdValid, rdA1Port, rdA2Port, cat16_eq_append]

open Sys2Proof Sys2Proof.Machine in
/-- Settles O46: a Reading shows both its angles, and every step an operation shows sends a whole frame, which
`tx_frame` can show, or nothing. -/
theorem dataPortsReadOnlyUnderTheirFlag : Obligations.DataPortsReadOnlyUnderTheirFlag := by
  intro i s t o h ho
  have htx : (txFramePort o).isSome = txValid o := isSome_txFramePort (exec_outsSendWholeFrames h o ho)
  rw [htx, isSome_rdA1Port, isSome_rdA2Port]
  exact ⟨Iff.rfl, Iff.rfl, Iff.rfl⟩

namespace Sys2Proof.Machine

/-! ## What an operation writes of the streams (R32, R33, R34) -/

/-- Every operation completes in every state (R130). -/
theorem exec_completes (i : Instr) (s : State) : ∃ t, exec i s = .next t := by
  cases i <;> exact ⟨_, rfl⟩

/-- From `s` to `t` the streams only grow, TXS by `sent` and the consumed part of RXSTREAM by `consumed`; the configuration and
the requests still to come stay. -/
structure StreamsGrow (sent consumed : List Byte) (s t : State) : Prop where
  cfg : t.cfg = s.cfg
  pending : t.pending = s.pending
  txs : t.txs = s.txs ++ sent
  rxs : t.rxs = s.rxs ++ consumed
  rds : ∃ new, t.rds = s.rds ++ new

/-- What two steps write, the later one's bytes behind the earlier one's. -/
theorem StreamsGrow.trans {sent₁ sent₂ consumed₁ consumed₂ : List Byte} {s t u : State}
    (h₁ : StreamsGrow sent₁ consumed₁ s t) (h₂ : StreamsGrow sent₂ consumed₂ t u) :
    StreamsGrow (sent₁ ++ sent₂) (consumed₁ ++ consumed₂) s u := by
  obtain ⟨new₁, hrds₁⟩ := h₁.rds
  obtain ⟨new₂, hrds₂⟩ := h₂.rds
  exact {
    cfg := h₂.cfg.trans h₁.cfg
    pending := h₂.pending.trans h₁.pending
    txs := by rw [h₂.txs, h₁.txs, List.append_assoc]
    rxs := by rw [h₂.rxs, h₁.rxs, List.append_assoc]
    rds := ⟨new₁ ++ new₂, by rw [hrds₂, hrds₁, List.append_assoc]⟩ }

/-- A change of the other fields writes no stream. -/
theorem streamsGrow_nil {s t : State} (hcfg : t.cfg = s.cfg) (hpending : t.pending = s.pending)
    (htxs : t.txs = s.txs) (hrxs : t.rxs = s.rxs) (hrds : t.rds = s.rds) : StreamsGrow [] [] s t :=
  ⟨hcfg, hpending, by simp [htxs], by simp [hrxs], [], by simp [hrds]⟩

theorem streamsGrow_begin (s : State) : StreamsGrow [] [] s s.begin := streamsGrow_nil rfl rfl rfl rfl rfl

theorem streamsGrow_outStep (o : StepOut) (s : State) : StreamsGrow [] [] s (outStep o s) :=
  streamsGrow_nil rfl rfl rfl rfl rfl

theorem streamsGrow_rstStep (s : State) : StreamsGrow [] [] s (rstStep s) := streamsGrow_nil rfl rfl rfl rfl rfl

theorem streamsGrow_encStep (a1 a2 : Angle) (s : State) :
    StreamsGrow (encodeFrame a1 a2) [] s (encStep a1 a2 s) :=
  ⟨rfl, rfl, rfl, by simp, [], by simp⟩

/-- An event adds its Reading to RDS if it is an emit, and nothing otherwise (R104, R105). -/
theorem recordEvent_rds (s : State) (e : Event) : (s.recordEvent e).rds = s.rds ++ emittedReadings [e] := by
  cases e <;> simp [emittedReadings]

theorem rxbStep_rds (b : Byte) (s : State) :
    (rxbStep b s).rds = s.rds ++ emittedReadings [(framerStep s.framer b).2] := by
  simp [rxbStep, recordEvent_rds]

theorem streamsGrow_rxbStep (b : Byte) (s : State) : StreamsGrow [] [b] s (rxbStep b s) :=
  ⟨by simp, by simp, by simp, by simp, _, rxbStep_rds b s⟩

theorem streamsGrow_rxsSteps (bs : List Byte) (s : State) : StreamsGrow [] bs s (rxsSteps bs s) := by
  induction bs generalizing s with
  | nil => exact streamsGrow_nil rfl rfl rfl rfl rfl
  | cons b bs ih => exact (streamsGrow_rxbStep b s).trans (ih (rxbStep b s))

/-- What every operation writes of the streams: TXS grows by `sentBytes`, the consumed stream by `consumedBytes`. -/
theorem exec_streamsGrow {i : Instr} {s t : State} (h : exec i s = .next t) :
    StreamsGrow (sentBytes i) (consumedBytes i) s t := by
  have h0 : StreamsGrow [] [] s s.begin := streamsGrow_begin s
  cases i with
  | frame w => cases h; exact h0.trans (streamsGrow_outStep _ _)
  | chk a1 a2 => cases h; exact h0.trans (streamsGrow_outStep _ _)
  | enc a1 a2 => cases h; exact h0.trans (streamsGrow_encStep a1 a2 _)
  | val w0 w1 w2 w3 w4 w5 w6 => cases h; exact h0.trans (streamsGrow_outStep _ _)
  | dec f0 f1 f2 f3 f4 f5 f6 => cases h; exact h0.trans (streamsGrow_outStep _ _)
  | rxb b => cases h; exact h0.trans (streamsGrow_rxbStep b _)
  | rst => cases h; exact h0.trans (streamsGrow_rstStep _)
  | nop => cases h; exact h0.trans (streamsGrow_outStep _ _)
  | rxs bs => cases h; exact h0.trans (streamsGrow_rxsSteps bs _)
  | loop a1 a2 =>
    cases h
    exact h0.trans ((streamsGrow_encStep a1 a2 _).trans (streamsGrow_rxsSteps (encodeFrame a1 a2) _))

/-- Of R55's operations only `ENC` sends. -/
theorem sentBytes_eq_nil {i : Instr} (hop : isOperation i = true) (henc : ∀ a1 a2, i ≠ .enc a1 a2) :
    sentBytes i = [] := by
  cases i with
  | enc a1 a2 => exact absurd rfl (henc a1 a2)
  | loop a1 a2 => cases hop
  | _ => rfl

/-! ## The operations that leave the framer alone (R38, R101) -/

theorem outStep_begin (o : StepOut) (s : State) :
    outStep o s.begin = { s with outs := [o], txs := s.txs ++ [] } := by
  simp [outStep, State.begin, State.putOut]

/-- An operation that leaves the framer alone shows one output, the same from every state, and writes nothing but TXS. -/
theorem exec_of_leavesFramer {i : Instr} (hi : leavesFramer i = true) :
    ∃ o, ∀ s, exec i s = .next { s with outs := [o], txs := s.txs ++ sentBytes i } := by
  cases i with
  | frame w => exact ⟨_, fun s => congrArg Host.Outcome.next (outStep_begin _ s)⟩
  | chk a1 a2 => exact ⟨_, fun s => congrArg Host.Outcome.next (outStep_begin _ s)⟩
  | enc a1 a2 => exact ⟨frameOut (encodeFrame a1 a2), fun _ => rfl⟩
  | val w0 w1 w2 w3 w4 w5 w6 => exact ⟨_, fun s => congrArg Host.Outcome.next (outStep_begin _ s)⟩
  | dec f0 f1 f2 f3 f4 f5 f6 => exact ⟨_, fun s => congrArg Host.Outcome.next (outStep_begin _ s)⟩
  | nop => exact ⟨_, fun s => congrArg Host.Outcome.next (outStep_begin _ s)⟩
  | rxb b => cases hi
  | rst => cases hi
  | rxs bs => cases hi
  | loop a1 a2 => cases hi

end Sys2Proof.Machine

open Sys2Proof Sys2Proof.Machine in
/-- Settles O30: step by step the streams only grow by what is sent and consumed, and an operation that leaves the framer alone
changes no field but the outputs and TXS. -/
theorem eachOperationWritesOnlyItsStreams : Obligations.EachOperationWritesOnlyItsStreams := by
  refine ⟨?_, fun _ _ => rfl, rfl, fun _ => rfl, fun _ => rfl⟩
  intro i s t h
  obtain ⟨hcfg, hpending, htxs, hrxs, hrds⟩ := exec_streamsGrow h
  refine ⟨hcfg, hpending, htxs, hrxs, hrds, fun hi => ?_⟩
  obtain ⟨o, ho⟩ := exec_of_leavesFramer hi
  cases (ho s).symm.trans h
  exact ⟨rfl, rfl, rfl, rfl⟩

open Sys2Proof Sys2Proof.Machine in
/-- Settles O28: the one output shown is the same from every state. -/
theorem codecOutputsIgnoreTheState : Obligations.CodecOutputsIgnoreTheState := by
  intro i s s' t t' hi h h'
  obtain ⟨o, ho⟩ := exec_of_leavesFramer hi
  cases (ho s).symm.trans h
  cases (ho s').symm.trans h'
  rfl

open Sys2Proof Sys2Proof.Machine in
/-- Settles O44: every operation completes with TXS extended by what it sends, and only `ENC` sends. -/
theorem onlyEncWritesTxs : Obligations.OnlyEncWritesTxs := by
  constructor
  · intro a1 a2 s
    obtain ⟨t, ht⟩ := exec_completes (.enc a1 a2) s
    exact ⟨t, ht, (exec_streamsGrow ht).txs⟩
  · intro i s hop henc
    obtain ⟨t, ht⟩ := exec_completes i s
    have htxs : t.txs = s.txs ++ sentBytes i := (exec_streamsGrow ht).txs
    rw [sentBytes_eq_nil hop henc, List.append_nil] at htxs
    exact ⟨t, ht, htxs⟩

namespace Sys2Proof.Machine

/-! ## The checksum, on angles and on bytes (R70, R71) -/

theorem getLsbD_hi8 (a : Angle) {k : Nat} (hk : k < 8) : (hi8 a).getLsbD k = a.getLsbD (k + 8) := by
  simp [hi8, hk, Nat.add_comm]

theorem getLsbD_lo8 (a : Angle) {k : Nat} (hk : k < 8) : (lo8 a).getLsbD k = a.getLsbD k := by
  simp [lo8, hk]

theorem checksum_eq_chk4 (a1 a2 : Angle) : checksum a1 a2 = chk4 (hi8 a1) (lo8 a1) (hi8 a2) (lo8 a2) := rfl

theorem chk4_eq_checksum (b1 b2 b3 b4 : Byte) : chk4 b1 b2 b3 b4 = checksum (cat16 b1 b2) (cat16 b3 b4) := by
  simp only [checksum_eq_chk4, hi8_cat16, lo8_cat16]

/-- Bit `k` of the checksum is the parity of bit `k` of the four angle bytes (R70). -/
theorem getLsbD_checksum (a1 a2 : Angle) {k : Nat} (hk : k < 8) :
    (checksum a1 a2).getLsbD k =
      (((a1.getLsbD (k + 8) ^^ a1.getLsbD k) ^^ a2.getLsbD (k + 8)) ^^ a2.getLsbD k) := by
  simp only [checksum, BitVec.getLsbD_xor, getLsbD_hi8 _ hk, getLsbD_lo8 _ hk]

/-- `CHK` shows the checksum in one step and changes no other field (R72). -/
theorem exec_chk (a1 a2 : Angle) (s : State) :
    exec (.chk a1 a2) s = .next { s with outs := [answerOut (.byte (checksum a1 a2))] } := by
  have hstep : exec (.chk a1 a2) s = .next (outStep (answerOut (.byte (checksum a1 a2))) s.begin) := rfl
  rw [hstep, outStep_begin, List.append_nil]

end Sys2Proof.Machine

open Sys2Proof Sys2Proof.Machine in
/-- Settles O1: the next state of `CHK`, and the checksum as bytes, as `Chk4` and bit by bit. -/
theorem chkAnswersXorOfAngleBytes : Obligations.ChkAnswersXorOfAngleBytes := by
  refine ⟨exec_chk, ?angles, ?bytes⟩
  case angles => exact fun a1 a2 => ⟨rfl, checksum_eq_chk4 a1 a2, fun _ hk => getLsbD_checksum a1 a2 hk⟩
  case bytes => exact fun b1 b2 b3 b4 => ⟨rfl, chk4_eq_checksum b1 b2 b3 b4⟩

open Sys2Proof Sys2Proof.Machine in
/-- Settles O47: the fold order is the definition's own; the bit law and the form on bytes are the checksum's lemmas. -/
theorem checksumIsTheXorOfTheAngleBytes : Obligations.ChecksumIsTheXorOfTheAngleBytes := by
  refine ⟨?bits, checksum_eq_chk4, ?bytes⟩
  case bits => exact fun a1 a2 => ⟨rfl, fun _ hk => getLsbD_checksum a1 a2 hk⟩
  case bytes => exact fun b1 b2 b3 b4 => ⟨rfl, chk4_eq_checksum b1 b2 b3 b4⟩

namespace Sys2Proof.Machine

/-! ## The step of `ENC` (R82) -/

/-- `frameOut` stays folded: the flags of the step are its own definition (R17). -/
theorem encStep_begin (a1 a2 : Angle) (s : State) :
    encStep a1 a2 s.begin =
      { s with txs := s.txs ++ encodeFrame a1 a2, outs := [frameOut (encodeFrame a1 a2)] } := by
  simp [encStep, State.begin, State.txPut, State.putOut]

/-- `ENC` shows its frame in one step, appends it to TXS and changes no other field (R33, R82). -/
theorem exec_enc (a1 a2 : Angle) (s : State) :
    exec (.enc a1 a2) s =
      .next { s with txs := s.txs ++ encodeFrame a1 a2, outs := [frameOut (encodeFrame a1 a2)] } :=
  congrArg Host.Outcome.next (encStep_begin a1 a2 s)

end Sys2Proof.Machine

open Sys2Proof Sys2Proof.Machine in
/-- Settles O2: the seven bytes are those `encodeFrame` lists (R80), and the next state of `ENC` is `exec_enc`'s. -/
theorem encSendsTheFrame : Obligations.EncSendsTheFrame :=
  fun a1 a2 s => ⟨rfl, exec_enc a1 a2 s⟩

namespace Sys2Proof.Machine

/-! ## An open window stands at the end of the stream (R15, R111) -/

/-- R15's third clause, of a framer and any stream it has consumed: while collecting, START and `acc` are the last bytes. -/
def OpenWindowIn (f : Framer) (stream : List Byte) : Prop :=
  f.rxState = .collecting → ∃ before, stream = before ++ START :: f.acc

theorem windowOpen_iff (s : State) : WindowOpen s ↔ OpenWindowIn s.framer s.rxs := Iff.rfl

theorem openWindowIn_of_seekStart {f : Framer} (h : f.rxState = .seekStart) (stream : List Byte) :
    OpenWindowIn f stream := by
  intro hcoll
  rw [h] at hcoll
  cases hcoll

/-- The window a re-seek opens ends where the bytes searched end (R106). -/
theorem openWindowIn_seek (earlier bs : List Byte) : OpenWindowIn (seek bs) (earlier ++ bs) := by
  rcases seek_cases bs with ⟨-, hseek⟩ | ⟨before, after, rfl, -, hseek⟩
  · exact openWindowIn_of_seekStart (by rw [hseek]; rfl) _
  · intro _
    exact ⟨earlier ++ before, by simp [hseek]⟩

/-- Every byte keeps the open window at the end of the stream, a discard's re-seek included. -/
theorem openWindowIn_framerStep {f : Framer} {stream : List Byte} (h : OpenWindowIn f stream) (b : Byte) :
    OpenWindowIn (framerStep f b).1 (stream ++ [b]) := by
  rcases framerStep_cases f b with ⟨hrx, -, hstep⟩ | ⟨-, rfl, hstep⟩ | ⟨hrx, -, hstep⟩ | ⟨r, -, -, -, hstep⟩ |
    ⟨hrx, -, -, hstep⟩ <;> rw [hstep]
  · exact openWindowIn_of_seekStart hrx _
  · exact fun _ => ⟨stream, rfl⟩
  · obtain ⟨before, rfl⟩ := h hrx
    exact fun _ => ⟨before, by simp⟩
  · exact openWindowIn_of_seekStart rfl _
  · obtain ⟨before, rfl⟩ := h hrx
    simpa using openWindowIn_seek (before ++ [START]) (f.acc ++ [b])

/-- The window test accepts the frame of the Reading it answers and nothing else (R84, R94). -/
theorem eq_encodeFrame_of_validate {w : List Byte} {r : Reading} (h : validate w = some r) :
    w = encodeFrame r.a1 r.a2 := by
  match w, validate_some_length h with
  | [w0, w1, w2, w3, w4, w5, w6], _ =>
    obtain ⟨rfl, rfl, rfl, rfl⟩ := validate_eq_some h
    simp [encodeFrame, checksum_eq_chk4]

/-- What an emit says of the step: the window it completes validates, and the framer is idle behind it (R104). -/
theorem framerStep_eq_emit {f : Framer} {b : Byte} {r : Reading} (h : (framerStep f b).2 = .emit r) :
    f.rxState = .collecting ∧ validate (window f.acc b) = some r ∧ (framerStep f b).1 = Framer.idle := by
  rcases framerStep_cases f b with ⟨-, -, hstep⟩ | ⟨-, -, hstep⟩ | ⟨-, -, hstep⟩ | ⟨r', hrx, -, hv, hstep⟩ |
    ⟨-, -, -, hstep⟩ <;> rw [hstep] at h <;> cases h
  exact ⟨hrx, hv, by rw [hstep]⟩

/-- The frame of an emitted Reading is the end of the stream (R94, R104). -/
theorem openWindowIn_emit {f : Framer} {stream : List Byte} (h : OpenWindowIn f stream) {b : Byte} {r : Reading}
    (he : (framerStep f b).2 = .emit r) : ∃ gap, stream ++ [b] = gap ++ encodeFrame r.a1 r.a2 := by
  obtain ⟨hrx, hv, -⟩ := framerStep_eq_emit he
  obtain ⟨before, rfl⟩ := h hrx
  exact ⟨before, by simp [← eq_encodeFrame_of_validate hv, window]⟩

/-! ## What is kept by every step of the receive side (R101) -/

/-- A property of the receive side alone: it does not change while the framer and the two receive streams stay. -/
def OfReceiveSide (P : State → Prop) : Prop :=
  ∀ s t : State, t.framer = s.framer → t.rxs = s.rxs → t.rds = s.rds → P s → P t

/-- An operation keeps a property of the receive side that `RXB` and `RST` keep. -/
theorem exec_keeps {P : State → Prop} (hP : OfReceiveSide P) (hrxb : ∀ b s, P s → P (rxbStep b s))
    (hrst : ∀ s, P s → P (rstStep s)) {i : Instr} {s t : State} (h : exec i s = .next t) (hs : P s) : P t := by
  have hbegin : P s.begin := hP s _ rfl rfl rfl hs
  by_cases hi : leavesFramer i = true
  · obtain ⟨o, ho⟩ := exec_of_leavesFramer hi
    cases (ho s).symm.trans h
    exact hP s _ rfl rfl rfl hs
  cases i with
  | rxb b => cases h; exact hrxb b _ hbegin
  | rst => cases h; exact hrst _ hbegin
  | rxs bs => cases h; exact rxsSteps_induct hrxb bs _ hbegin
  | loop a1 a2 => cases h; exact rxsSteps_induct hrxb (encodeFrame a1 a2) _ (hP s.begin _ rfl rfl rfl hbegin)
  | _ => exact absurd rfl hi

/-- A step keeps a property of the receive side that `RXB` and `RST` keep. -/
theorem step_keeps {P : State → Prop} (hP : OfReceiveSide P) (hrxb : ∀ b s, P s → P (rxbStep b s))
    (hrst : ∀ s, P s → P (rstStep s)) {s t : State} (h : step s = .next t) (hs : P s) : P t := by
  obtain ⟨i, rest, -, hexec⟩ := step_next h
  exact exec_keeps hP hrxb hrst hexec (hP s _ rfl rfl rfl hs)

/-! ## The emitted windows in the stream (R111) -/

theorem windowsDisjoint_iff (s : State) :
    WindowsDisjoint s ↔ ∃ gaps rest, gaps.length = s.rds.length ∧ s.rxs = gapsAndFrames gaps s.rds ++ rest ∧
      OpenWindowIn s.framer rest := Iff.rfl

theorem ofReceiveSide_windowsDisjoint : OfReceiveSide WindowsDisjoint := by
  intro s t hframer hrxs hrds h
  rw [windowsDisjoint_iff] at h ⊢
  rwa [hframer, hrxs, hrds]

/-- A step that emits nothing makes the rest one byte longer; an emit ends it with the frame, which makes the bytes of the rest
before the frame a gap and the new rest empty. -/
theorem windowsDisjoint_rxbStep (b : Byte) (s : State) (h : WindowsDisjoint s) : WindowsDisjoint (rxbStep b s) := by
  obtain ⟨gaps, rest, hlen, hrxs, hopen⟩ := (windowsDisjoint_iff s).mp h
  rw [windowsDisjoint_iff, rxbStep_framer, rxbStep_rxs, rxbStep_rds, hrxs, List.append_assoc]
  cases he : (framerStep s.framer b).2 with
  | emit r =>
    obtain ⟨gap, hgap⟩ := openWindowIn_emit hopen he
    obtain ⟨-, -, hidle⟩ := framerStep_eq_emit he
    rw [hgap, hidle]
    exact ⟨gaps ++ [gap], [], by simp [hlen, emittedReadings], by simp [emittedReadings, gapsAndFrames_snoc hlen],
      openWindowIn_of_seekStart rfl _⟩
  | quiet | discard =>
    rw [emittedReadings, emittedReadings, List.append_nil]
    exact ⟨gaps, rest ++ [b], hlen, rfl, openWindowIn_framerStep hopen b⟩

theorem windowsDisjoint_rstStep (s : State) (h : WindowsDisjoint s) : WindowsDisjoint (rstStep s) := by
  obtain ⟨gaps, rest, hlen, hrxs, -⟩ := h
  exact ⟨gaps, rest, hlen, hrxs, openWindowIn_of_seekStart (f := Framer.idle) rfl rest⟩

end Sys2Proof.Machine

open Sys2Proof Sys2Proof.Machine in
/-- Settles O43: the claim speaks of the receive side alone, a byte extends the rest or closes it with the emitted frame, and
`RST` opens no window. The claim carries the open window itself, so the rest of the invariant is not needed. -/
theorem emittedWindowsAreDisjoint : Obligations.EmittedWindowsAreDisjoint :=
  fun _ _ _ hdisjoint hstep =>
    step_keeps ofReceiveSide_windowsDisjoint windowsDisjoint_rxbStep windowsDisjoint_rstStep hstep hdisjoint

namespace Sys2Proof.Machine

/-! ## The rows of the transition table (R109) -/

theorem seek_of_notMem {bs : List Byte} (h : START ∉ bs) : seek bs = Framer.idle := by
  rcases seek_cases bs with ⟨-, hseek⟩ | ⟨before, after, rfl, -, -⟩
  · exact hseek
  · exact absurd (by simp) h

/-- A re-seek stops at the first START (R106). -/
theorem seek_append_start {before : List Byte} (h : START ∉ before) (after : List Byte) :
    seek (before ++ START :: after) = ⟨.collecting, after⟩ := by
  induction before with
  | nil => exact seek_start after
  | cons b before ih =>
    rw [List.mem_cons, not_or] at h
    obtain ⟨hb, hbefore⟩ := h
    rw [List.cons_append, seek_skip (Ne.symm hb), ih hbefore]

theorem framerStep_skip {f : Framer} {b : Byte} (hrx : f.rxState = .seekStart) (hb : b ≠ START) :
    framerStep f b = (f, .quiet) := by
  simp [framerStep, hrx, hb]

theorem framerStep_start {f : Framer} {b : Byte} (hrx : f.rxState = .seekStart) (hb : b = START) :
    framerStep f b = (⟨.collecting, []⟩, .quiet) := by
  simp [framerStep, hrx, hb]

theorem framerStep_collect {f : Framer} (b : Byte) (hrx : f.rxState = .collecting) (hlen : f.acc.length < accCap) :
    framerStep f b = (⟨.collecting, f.acc ++ [b]⟩, .quiet) := by
  simp [framerStep, hrx, hlen]

theorem framerStep_discard {f g : Framer} {b : Byte} (hrx : f.rxState = .collecting) (hlen : f.acc.length = accCap)
    (hv : validate (window f.acc b) = none) (hseek : seek (f.acc ++ [b]) = g) : framerStep f b = (g, .discard) := by
  simp [framerStep, hrx, hlen, validateStep, hv, hseek]

/-- `RXB` completes with what one framer step says: the framer written, the byte consumed, the event shown and recorded (R100). -/
theorem exec_rxb {s : State} {b : Byte} {f : Framer} {e : Event} (h : framerStep s.framer b = (f, e)) :
    exec (.rxb b) s =
      .next ({ s with rxState := f.rxState, acc := f.acc, rxs := s.rxs ++ [b], outs := [eventOut e] }.recordEvent e) := by
  have hstep : exec (.rxb b) s =
      .next ((((s.begin.consume b).setFramer (framerStep s.framer b).1).recordEvent (framerStep s.framer b).2).putOut
        (eventOut (framerStep s.framer b).2)) := rfl
  rw [hstep, h]
  cases e <;> rfl

theorem exec_framer_of_leavesFramer {i : Instr} {s t : State} (hi : leavesFramer i = true) (h : exec i s = .next t) :
    t.framer = s.framer := by
  obtain ⟨o, ho⟩ := exec_of_leavesFramer hi
  cases (ho s).symm.trans h
  rfl

end Sys2Proof.Machine

open Sys2Proof Sys2Proof.Machine in
/-- Settles O10: each row of R109 is one equation of `framerStep`, carried to the state by `exec_rxb`; the two discard rows are
the two answers of the re-seek. -/
theorem framerFollowsItsTransitionTable : Obligations.FramerFollowsItsTransitionTable := by
  refine ⟨fun s b _ => ⟨?skip, ?start, ?collect, ?emit, ?discardStart, ?discardNoStart⟩, fun _ => rfl,
    fun _ _ _ => exec_framer_of_leavesFramer⟩
  case skip => exact fun hrx hb => exec_rxb (framerStep_skip hrx hb)
  case start => exact fun hrx hb => exec_rxb (framerStep_start hrx hb)
  case collect => exact fun hrx hlen => exec_rxb (framerStep_collect b hrx hlen)
  case emit => exact fun r hrx hlen hv => exec_rxb (framerStep_emit hrx hlen hv)
  case discardStart =>
    intro before after hrx hlen hv hsplit hbefore
    have hseek : seek (s.acc ++ [b]) = ⟨.collecting, after⟩ := hsplit ▸ seek_append_start hbefore after
    exact exec_rxb (framerStep_discard hrx hlen hv hseek)
  case discardNoStart =>
    intro hrx hlen hv hnone
    have hseek : seek (s.acc ++ [b]) = Framer.idle := seek_of_notMem hnone
    exact exec_rxb (framerStep_discard hrx hlen hv hseek)

namespace Sys2Proof.Machine

/-! ## What the requests decode to (R55, R56, R63), and the steps that complete (R130) -/

/-- A presentation of the ports decodes by its `sel` alone: the byte form of `sel` and of the angles loses nothing. -/
theorem decode_portRequest (sel : BitVec 3) (a1 a2 : Angle) (b : Byte) :
    decode (portRequest sel a1 a2 b) = decodeSel sel a1 a2 b := by
  have hlt : (sel.setWidth 8).toNat < 8 := by
    rw [BitVec.toNat_setWidth_of_le (by decide)]
    exact sel.isLt
  have hsel : (sel.setWidth 8).setWidth 3 = sel := by
    rw [BitVec.setWidth_setWidth_of_le sel (by decide), BitVec.setWidth_eq]
  simp only [decode, portRequest, decodePorts, if_pos hlt, hsel, cat16_hi8_lo8]

/-- Every value of `sel` selects an operation: the table of R56 has no reserved row. -/
theorem decodeSel_eq_ok (sel : BitVec 3) (a1 a2 : Angle) (b : Byte) :
    ∃ i rest, decodeSel sel a1 a2 b = .ok i rest := by
  unfold decodeSel
  split_ifs <;> exact ⟨_, _, rfl⟩

/-- The request of a well-formed operation decodes to that operation and asks for nothing more. -/
theorem decode_encode {i : Instr} (h : i.wellFormed = true) : decode (encode i) = .ok i [] := by
  cases i with
  | frame w => exact congrArg (fun v => Decoded.ok (.frame v) []) (flatten7_wireBytes w)
  | chk a1 a2 => simp only [encode, decode, decodeAngles, cat16_hi8_lo8]
  | loop a1 a2 => simp only [encode, decode, decodeAngles, cat16_hi8_lo8]
  | enc a1 a2 => exact decode_portRequest 0b010 a1 a2 0
  | rxb b => exact decode_portRequest 0b001 0 0 b
  | rxs bs =>
    cases bs with
    | nil => cases h
    | cons b bs => rfl
  | val _ _ _ _ _ _ _ | dec _ _ _ _ _ _ _ | rst | nop => rfl

/-- With nothing asked for, the step is `NOP`'s (R163). -/
theorem nextDecoded_of_pending_nil {s : State} (h : s.pending = []) : nextDecoded s = .ok .nop [] := by
  simp only [nextDecoded, nextRequest, h, decode_encode (i := .nop) rfl]

/-- With requests queued, the step is asked for what the first of them decodes to (R31). -/
theorem nextDecoded_of_pending_cons {s : State} {r : Request} {later : List Request} (h : s.pending = r :: later) :
    nextDecoded s = decode r := by
  simp only [nextDecoded, nextRequest, h]

/-- A step whose request decodes has a next state, for the operation it runs has one (R130). -/
theorem step_completes {s : State} {i : Instr} {rest : List Request} (h : nextDecoded s = .ok i rest) :
    ∃ t, step s = .next t := by
  obtain ⟨t, ht⟩ := exec_completes i (takeRequest s rest)
  exact ⟨t, by simp only [step, h, ht]⟩

end Sys2Proof.Machine

open Sys2Proof Sys2Proof.Machine in
/-- Settles O45: `exec_completes` needs no premise on the operation. -/
theorem everyOperationHasANextState : Obligations.EveryOperationHasANextState :=
  fun i s _ => exec_completes i s

open Sys2Proof Sys2Proof.Machine in
/-- Settles O31: a step completes as soon as its request decodes, and the idle request, every port value and the request of
every well-formed operation do. -/
theorem noOperationEverStops : Obligations.NoOperationEverStops := by
  refine ⟨exec_completes, fun s h => step_completes (nextDecoded_of_pending_nil h), ?ports, ?wellFormed⟩
  case ports =>
    intro s sel a1 a2 b later h
    obtain ⟨i, rest, hsel⟩ := decodeSel_eq_ok sel a1 a2 b
    have hdecoded : nextDecoded s = .ok i rest := by
      rw [nextDecoded_of_pending_cons h, decode_portRequest, hsel]
    exact step_completes hdecoded
  case wellFormed =>
    intro s i later hwf h
    have hdecoded : nextDecoded s = .ok i [] := by rw [nextDecoded_of_pending_cons h, decode_encode hwf]
    exact step_completes hdecoded

open Sys2Proof Sys2Proof.Machine in
/-- Settles O33: `decode_encode`, which goes through the constructors of `Instr`. -/
theorem decodeEncodeRoundTrip : Obligations.DecodeEncodeRoundTrip :=
  fun _ h => decode_encode h

namespace Sys2Proof.Machine

/-! ## What every step keeps (R15, R17, R18, R33) -/

/-- What a completed operation reaches, by the steps it is made of: it begins by clearing the outputs, and then shows a step
without event, sends a frame, receives bytes or resets. -/
theorem exec_induct {P : State → Prop}
    (hout : ∀ o s, rdValid o = false → rxDiscardFlag o = false → P s → P (outStep o s))
    (henc : ∀ a1 a2 s, P s → P (encStep a1 a2 s)) (hrxb : ∀ b s, P s → P (rxbStep b s))
    (hrst : ∀ s, P s → P (rstStep s)) {i : Instr} {s t : State} (h : exec i s = .next t) (hs : P s.begin) : P t := by
  cases i with
  | frame w => cases h; exact hout _ _ rfl rfl hs
  | chk a1 a2 => cases h; exact hout _ _ rfl rfl hs
  | enc a1 a2 => cases h; exact henc a1 a2 _ hs
  | val w0 w1 w2 w3 w4 w5 w6 => cases h; exact hout _ _ rfl rfl hs
  | dec f0 f1 f2 f3 f4 f5 f6 => cases h; exact hout _ _ rfl rfl hs
  | rxb b => cases h; exact hrxb b _ hs
  | rst => cases h; exact hrst _ hs
  | nop => cases h; exact hout _ _ rfl rfl hs
  | rxs bs => cases h; exact rxsSteps_induct hrxb bs _ hs
  | loop a1 a2 => cases h; exact rxsSteps_induct hrxb _ _ (henc a1 a2 _ hs)

/-! ### Framer and open window -/

theorem framerOk_idle : Framer.idle.Ok := by decide

/-- A re-seek over at most six bytes keeps at most five: the START it stops at is not kept (R106). -/
theorem framerOk_seek {bs : List Byte} (h : bs.length ≤ 6) : (seek bs).Ok := by
  rcases seek_cases bs with ⟨-, hseek⟩ | ⟨before, after, rfl, -, hseek⟩ <;> rw [hseek]
  · exact framerOk_idle
  · refine ⟨by simp, ?_⟩
    simp only [List.length_append, List.length_cons] at h
    simp only [accCap]
    omega

theorem framerOk_framerStep {f : Framer} (h : f.Ok) (b : Byte) : (framerStep f b).1.Ok := by
  obtain ⟨hseeking, hlen⟩ := h
  rcases framerStep_cases f b with ⟨-, -, hstep⟩ | ⟨-, -, hstep⟩ | ⟨-, hlt, hstep⟩ | ⟨r, -, -, -, hstep⟩ |
    ⟨-, -, -, hstep⟩ <;> rw [hstep]
  · exact ⟨hseeking, hlen⟩
  · exact ⟨by simp, by simp⟩
  · exact ⟨by simp, by simpa using hlt⟩
  · exact framerOk_idle
  · exact framerOk_seek (by rw [List.length_append]; exact Nat.succ_le_succ hlen)

/-- R15's three clauses. -/
def ReceiveInv (s : State) : Prop := s.framer.Ok ∧ OpenWindowIn s.framer s.rxs

theorem ofReceiveSide_receiveInv : OfReceiveSide ReceiveInv := by
  intro s t hframer hrxs _ h
  rwa [ReceiveInv, hframer, hrxs]

theorem receiveInv_rxbStep (b : Byte) (s : State) (h : ReceiveInv s) : ReceiveInv (rxbStep b s) := by
  obtain ⟨hok, hopen⟩ := h
  rw [ReceiveInv, rxbStep_framer, rxbStep_rxs]
  exact ⟨framerOk_framerStep hok b, openWindowIn_framerStep hopen b⟩

theorem receiveInv_rstStep (s : State) (_ : ReceiveInv s) : ReceiveInv (rstStep s) :=
  ⟨framerOk_idle, openWindowIn_of_seekStart (f := Framer.idle) rfl _⟩

/-! ### Counter, outputs and TXS -/

theorem counterOk_zero {s : State} (hw : 0 < s.cfg.discardW) (hcnt : s.discardCnt = 0) : CounterOk s :=
  ⟨hw, by rw [hcnt]; exact Nat.two_pow_pos _⟩

theorem counterOk_rxbStep (b : Byte) (s : State) (h : CounterOk s) : CounterOk (rxbStep b s) := by
  obtain ⟨hw, hlt⟩ := h
  refine ⟨by simpa using hw, ?_⟩
  simp only [rxbStep, State.putOut_discardCnt, State.putOut_cfg, State.recordEvent_cfg]
  cases (framerStep s.framer b).2 with
  | quiet | emit r => exact hlt
  | discard => exact Nat.mod_lt _ (Nat.two_pow_pos _)

theorem exec_counterOk {i : Instr} {s t : State} (h : exec i s = .next t) (hs : CounterOk s) : CounterOk t :=
  exec_induct (P := CounterOk) (fun _ _ _ _ hs => hs) (fun _ _ _ hs => hs) counterOk_rxbStep
    (fun _ hs => counterOk_zero hs.1 rfl) h hs

theorem OneEventPerStep.snoc {s t : State} {o : StepOut} (h : OneEventPerStep s)
    (ho : ¬(rdValid o = true ∧ rxDiscardFlag o = true)) (ht : t.outs = s.outs ++ [o]) : OneEventPerStep t := by
  intro p hp
  rw [ht, List.mem_append, List.mem_singleton] at hp
  rcases hp with hp | rfl
  · exact h p hp
  · exact ho

/-- The framer's event is one event, so its step shows at most one (R107). -/
theorem eventOut_oneEvent (e : Event) : ¬(rdValid (eventOut e) = true ∧ rxDiscardFlag (eventOut e) = true) := by
  cases e <;> simp [eventOut, quietOut, rdValid, rxDiscardFlag]

/-- No step an operation shows has two receive events, whatever was shown before it. -/
theorem exec_oneEventPerStep {i : Instr} {s t : State} (h : exec i s = .next t) : OneEventPerStep t := by
  refine exec_induct (P := OneEventPerStep) ?out ?enc ?rxb ?rst h (by simp [OneEventPerStep])
  case out => exact fun o s hrd _ hs => hs.snoc (by simp [hrd]) (outStep_outs s o)
  case enc => exact fun a1 a2 s hs => hs.snoc (by simp [frameOut, rdValid]) (encStep_outs s a1 a2)
  case rxb => exact fun b s hs => hs.snoc (eventOut_oneEvent _) (rxbStep_outs b s)
  case rst => exact fun s hs => hs.snoc (by simp [quietOut, rdValid]) (rstStep_outs s)

/-- What an operation sends is a whole frame or nothing (R33). -/
theorem sentBytes_eq_frames (i : Instr) :
    ∃ sent : List Reading, sentBytes i = sent.flatMap (fun r => encodeFrame r.a1 r.a2) := by
  cases i with
  | enc a1 a2 | loop a1 a2 => exact ⟨[⟨a1, a2⟩], by simp [sentBytes]⟩
  | _ => exact ⟨[], rfl⟩

theorem exec_sentWholeFrames {i : Instr} {s t : State} (h : exec i s = .next t) (hs : SentWholeFrames s) :
    SentWholeFrames t := by
  obtain ⟨earlier, hearlier⟩ := hs
  obtain ⟨sent, hsent⟩ := sentBytes_eq_frames i
  exact ⟨earlier ++ sent, by rw [(exec_streamsGrow h).txs, hearlier, hsent, List.flatMap_append]⟩

/-! ### Readings -/

/-- A Reading received stays received while the stream grows. -/
theorem readingsWereReceived_grow {s : State} (h : ReadingsWereReceived s) (more : List Byte) :
    ∀ r ∈ s.rds, ∃ before after, s.rxs ++ more = before ++ encodeFrame r.a1 r.a2 ++ after := by
  intro r hr
  obtain ⟨before, after, hrxs⟩ := h r hr
  exact ⟨before, after ++ more, by rw [hrxs, List.append_assoc]⟩

/-- What soundness of reception needs along a step: the open window too, for an emit is read from it. -/
def ReceivedSoundly (s : State) : Prop := OpenWindowIn s.framer s.rxs ∧ ReadingsWereReceived s

theorem ofReceiveSide_receivedSoundly : OfReceiveSide ReceivedSoundly := by
  intro s t hframer hrxs hrds h
  rwa [ReceivedSoundly, ReadingsWereReceived, hframer, hrxs, hrds]

theorem receivedSoundly_rxbStep (b : Byte) (s : State) (h : ReceivedSoundly s) : ReceivedSoundly (rxbStep b s) := by
  obtain ⟨hopen, hreceived⟩ := h
  refine ⟨by rw [rxbStep_framer, rxbStep_rxs]; exact openWindowIn_framerStep hopen b, ?_⟩
  rw [ReadingsWereReceived, rxbStep_rxs, rxbStep_rds]
  cases he : (framerStep s.framer b).2 with
  | quiet | discard => simpa [emittedReadings] using readingsWereReceived_grow hreceived [b]
  | emit r =>
    intro r' hr'
    simp only [emittedReadings, List.mem_append, List.mem_singleton] at hr'
    rcases hr' with hold | rfl
    · exact readingsWereReceived_grow hreceived [b] r' hold
    · obtain ⟨gap, hgap⟩ := openWindowIn_emit hopen he
      exact ⟨gap, [], by rw [hgap, List.append_nil]⟩

theorem receivedSoundly_rstStep (s : State) (h : ReceivedSoundly s) : ReceivedSoundly (rstStep s) :=
  ⟨openWindowIn_of_seekStart (f := Framer.idle) rfl _, h.2⟩

end Sys2Proof.Machine

open Sys2Proof Sys2Proof.Machine in
/-- Settles O40: R15's clauses are kept byte by byte, the counter, TXS and the outputs by every operation, and taking the
request changes none of them. -/
theorem stepKeepsTheInvariant : Obligations.StepKeepsTheInvariant := by
  rintro s t ⟨hok, hopen, hcounter, hsent, -⟩ hstep
  have hreceive : ReceiveInv t :=
    step_keeps ofReceiveSide_receiveInv receiveInv_rxbStep receiveInv_rstStep hstep ⟨hok, hopen⟩
  obtain ⟨i, rest, -, hexec⟩ := step_next hstep
  exact ⟨hreceive.1, hreceive.2, exec_counterOk hexec hcounter, exec_sentWholeFrames hexec hsent,
    exec_oneEventPerStep hexec⟩

open Sys2Proof Sys2Proof.Machine in
/-- Settles O42: an emit reads its frame from the open window at the end of the stream, which is all it needs of the
invariant; what was received before stays in the longer stream. -/
theorem emittedReadingsWereReceived : Obligations.EmittedReadingsWereReceived := by
  rintro s t ⟨-, hopen, -⟩ hreceived hstep
  have hsound : ReceivedSoundly t :=
    step_keeps ofReceiveSide_receivedSoundly receivedSoundly_rxbStep receivedSoundly_rstStep hstep ⟨hopen, hreceived⟩
  exact hsound.2

namespace Sys2Proof.Machine

/-! ## The codec: frame word, window test, errors (R51, R74, R76, R84, R94) -/

/-- The FRAME row shows the window test of its wire bytes in one step and changes no other field (R51, R63). -/
theorem exec_frame (w : BitVec 56) (s : State) :
    exec (.frame w) s = .next { s with outs := [answerOut (.reading (validate (wireBytes w)))] } := by
  have hstep : exec (.frame w) s = .next (outStep (answerOut (.reading (frameFields w))) s.begin) := rfl
  rw [hstep, outStep_begin, List.append_nil, frameFields_eq_validate]

/-- `VAL` shows the window test in one step and changes no other field (R91). -/
theorem exec_val (w0 w1 w2 w3 w4 w5 w6 : Byte) (s : State) :
    exec (.val w0 w1 w2 w3 w4 w5 w6) s =
      .next { s with outs := [answerOut (.reading (validate [w0, w1, w2, w3, w4, w5, w6]))] } := by
  have hstep : exec (.val w0 w1 w2 w3 w4 w5 w6) s =
      .next (outStep (answerOut (.reading (validate [w0, w1, w2, w3, w4, w5, w6]))) s.begin) := rfl
  rw [hstep, outStep_begin, List.append_nil]

/-- `DEC` is `VAL` (R95). -/
theorem exec_dec_eq_exec_val (f0 f1 f2 f3 f4 f5 f6 : Byte) (s : State) :
    exec (.dec f0 f1 f2 f3 f4 f5 f6) s = exec (.val f0 f1 f2 f3 f4 f5 f6) s := rfl

/-- The three tests of a window (R90). -/
theorem isSome_validate_iff {w0 w1 w2 w3 w4 w5 w6 : Byte} :
    (validate [w0, w1, w2, w3, w4, w5, w6]).isSome = true ↔ w0 = START ∧ w6 = END ∧ w5 = chk4 w1 w2 w3 w4 := by
  simp [validate]

/-- An accepted window is the frame of its Reading, and every frame is accepted (R84, R94). -/
theorem validate_eq_some_iff {w : List Byte} {r : Reading} : validate w = some r ↔ w = encodeFrame r.a1 r.a2 := by
  constructor
  · exact eq_encodeFrame_of_validate
  · rintro rfl
    exact validate_encodeFrame r.a1 r.a2

theorem encodeFrame_inj {a1 a2 b1 b2 : Angle} (h : encodeFrame a1 a2 = encodeFrame b1 b2) : a1 = b1 ∧ a2 = b2 := by
  simpa using congrArg validate h

/-- The checksum is linear: errors change it by their own checksum. -/
theorem chk4_xor (b1 b2 b3 b4 e1 e2 e3 e4 : Byte) :
    chk4 (b1 ^^^ e1) (b2 ^^^ e2) (b3 ^^^ e3) (b4 ^^^ e4) = chk4 b1 b2 b3 b4 ^^^ chk4 e1 e2 e3 e4 := by
  simp only [chk4]
  ac_rfl

/-- The test on the checksum byte passes after errors exactly when their own checksum is the error of that byte (R74). -/
theorem chk4_xor_eq_iff (b1 b2 b3 b4 e1 e2 e3 e4 e5 : Byte) :
    chk4 b1 b2 b3 b4 ^^^ e5 = chk4 (b1 ^^^ e1) (b2 ^^^ e2) (b3 ^^^ e3) (b4 ^^^ e4) ↔ chk4 e1 e2 e3 e4 = e5 := by
  rw [chk4_xor, BitVec.xor_right_inj, eq_comm]

/-- The same bit by bit: an even number of errors at every bit (R74). -/
theorem chk4_eq_iff_parity (e1 e2 e3 e4 e5 : Byte) :
    chk4 e1 e2 e3 e4 = e5 ↔ ∀ k, k < 8 →
      ((((e1.getLsbD k ^^ e2.getLsbD k) ^^ e3.getLsbD k) ^^ e4.getLsbD k) ^^ e5.getLsbD k) = false := by
  simp only [chk4, BitVec.eq_of_getLsbD_eq_iff, BitVec.getLsbD_xor]
  exact forall₂_congr fun k _ => bne_eq_false_iff_eq.symm

/-- A frame with an error `e` on each byte. -/
def corrupted (a1 a2 : Angle) (e0 e1 e2 e3 e4 e5 e6 : Byte) : List Byte :=
  [START ^^^ e0, hi8 a1 ^^^ e1, lo8 a1 ^^^ e2, hi8 a2 ^^^ e3, lo8 a2 ^^^ e4, checksum a1 a2 ^^^ e5, END ^^^ e6]

/-- Errors go unnoticed exactly when the markers have none and the checksum byte has the checksum of the others. -/
theorem isSome_validate_corrupted_iff (a1 a2 : Angle) (e0 e1 e2 e3 e4 e5 e6 : Byte) :
    (validate (corrupted a1 a2 e0 e1 e2 e3 e4 e5 e6)).isSome = true ↔ e0 = 0 ∧ e6 = 0 ∧ chk4 e1 e2 e3 e4 = e5 := by
  rw [corrupted, isSome_validate_iff, checksum_eq_chk4, chk4_xor_eq_iff]
  simp

/-- The error on byte `j` when byte `i` alone has the error `e`. -/
def errorAt (i : Nat) (e : Byte) (j : Nat) : Byte := if i = j then e else 0

theorem set_xor_eq_corrupted {a1 a2 : Angle} {i : Nat} {b : Byte} (hb : (encodeFrame a1 a2)[i]? = some b) (e : Byte) :
    (encodeFrame a1 a2).set i (b ^^^ e) = corrupted a1 a2 (errorAt i e 0) (errorAt i e 1) (errorAt i e 2)
      (errorAt i e 3) (errorAt i e 4) (errorAt i e 5) (errorAt i e 6) := by
  obtain ⟨hi, rfl⟩ := List.getElem?_eq_some_iff.mp hb
  have hlt : i < 7 := hi
  interval_cases i <;> simp [encodeFrame, corrupted, errorAt]

/-- One error alone is noticed, whichever byte it is on (R74, vector V7). -/
theorem validate_set_xor {a1 a2 : Angle} {i : Nat} {b e : Byte} (hb : (encodeFrame a1 a2)[i]? = some b)
    (he : e ≠ 0#8) : validate ((encodeFrame a1 a2).set i (b ^^^ e)) = none := by
  obtain ⟨hi, -⟩ := List.getElem?_eq_some_iff.mp hb
  have hlt : i < 7 := hi
  rw [set_xor_eq_corrupted hb, ← Option.not_isSome_iff_eq_none, isSome_validate_corrupted_iff]
  interval_cases i <;> simp [errorAt, chk4, he, he.symm]

theorem twoPow_ne_zero {k : Nat} (hk : k < 8) : BitVec.twoPow 8 k ≠ 0#8 := by
  intro h
  have hbit := congrArg (fun v => v.getLsbD k) h
  simp [hk] at hbit

theorem hi8_xor (a d : Angle) : hi8 (a ^^^ d) = hi8 a ^^^ hi8 d := BitVec.extractLsb'_xor

theorem lo8_xor (a d : Angle) : lo8 (a ^^^ d) = lo8 a ^^^ lo8 d := BitVec.extractLsb'_xor

/-- A byte zero-extended to an angle is its low byte. -/
theorem setWidth_eq_cat16 (v : Byte) : v.setWidth 16 = cat16 0 v := by
  simp [cat16]

theorem inDomain_setWidth (v : Byte) : inDomain (v.setWidth 16) = true := by
  have hlt : v.toNat < 256 := v.isLt
  simp only [inDomain, angleMax, decide_eq_true_eq, BitVec.toNat_setWidth]
  omega

/-! ### What the checksum cannot see (R75, R76) -/

theorem checksum_swap (a1 a2 : Angle) : checksum a1 a2 = checksum a2 a1 := by
  simp only [checksum]
  ac_rfl

theorem checksum_swapBytes (a1 a2 : Angle) : checksum (cat16 (lo8 a1) (hi8 a1)) a2 = checksum a1 a2 := by
  simp only [checksum, hi8_cat16, lo8_cat16, BitVec.xor_comm (lo8 a1)]

theorem checksum_self (a : Angle) : checksum a a = 0#8 := by
  rw [checksum, BitVec.xor_assoc, BitVec.xor_self]

/-- One pattern on both angles is two errors at each of its bits. -/
theorem checksum_xor_both (a1 a2 d : Angle) : checksum (a1 ^^^ d) (a2 ^^^ d) = checksum a1 a2 := by
  have hself : chk4 (hi8 d) (lo8 d) (hi8 d) (lo8 d) = 0#8 := checksum_self d
  simp only [checksum_eq_chk4, hi8_xor, lo8_xor, chk4_xor, hself, BitVec.xor_zero]

theorem checksum_zero_setWidth (v : Byte) : checksum 0 (v.setWidth 16) = v := by
  rw [setWidth_eq_cat16, checksum, hi8_cat16, lo8_cat16]
  simp [hi8, lo8]

end Sys2Proof.Machine

open Sys2Proof Sys2Proof.Machine in
/-- Settles O3: both answer `validate`'s Reading, which exists exactly when the three tests of R90 hold. -/
theorem valAndDecAnswerTheWindowTest : Obligations.ValAndDecAnswerTheWindowTest := by
  intro w0 w1 w2 w3 w4 w5 w6 s
  refine ⟨validate [w0, w1, w2, w3, w4, w5, w6], exec_val .., exec_val .., ?accepted, ?rejected⟩
  case accepted =>
    rintro ⟨rfl, rfl, rfl⟩
    rw [← cat16_eq_append, ← cat16_eq_append]
    exact if_pos ⟨rfl, rfl, rfl⟩
  case rejected =>
    rintro h
    rw [← Option.not_isSome_iff_eq_none, isSome_validate_iff]
    exact h

open Sys2Proof Sys2Proof.Machine in
/-- Settles O4: mask and match are the marker tests by `hasMarkers_iff`, the constraint is the checksum test on the wire
bytes, and a frame's word is its flattening. -/
theorem frameWordTestIsTheWindowTest : Obligations.FrameWordTestIsTheWindowTest := by
  refine ⟨fun w s => ⟨exec_frame w s, ?test⟩, wireBytes_flatten7, fun a1 a2 => ⟨_, wireBytes_flatten7 ..⟩⟩
  have hmarkers : w &&& 0xFF0000000000FF = 0xAA000000000055 ↔ wireByte w 0 = START ∧ wireByte w 6 = END := by
    rw [← hasMarkers_iff, hasMarkers, beq_iff_eq]
    rfl
  rw [wireBytes, isSome_validate_iff, hmarkers, and_assoc]
  rfl

open Sys2Proof Sys2Proof.Machine in
/-- Settles O5: acceptance and one-to-one are `validate_eq_some_iff`; `DEC` shows one Reading exactly when the window test
gives it. -/
theorem decodedExactlyWhenEncoded : Obligations.DecodedExactlyWhenEncoded := by
  refine ⟨fun w r => validate_eq_some_iff, fun _ _ _ _ => encodeFrame_inj, ?dec⟩
  intro f0 f1 f2 f3 f4 f5 f6 r s
  rw [exec_dec_eq_exec_val, exec_val, ← validate_eq_some_iff]
  simp [answerOut]

open Sys2Proof Sys2Proof.Machine in
/-- Settles O6: the checksum byte is the XOR of the four angle bytes and the last byte is END. -/
theorem exactlyOneEndingIsAccepted : Obligations.ExactlyOneEndingIsAccepted := by
  intro w1 w2 w3 w4
  refine ⟨chk4 w1 w2 w3 w4, END, fun w5 w6 => ?_⟩
  have htests : (validate [START, w1, w2, w3, w4, w5, w6]).isSome = true ↔
      START = START ∧ w6 = END ∧ w5 = chk4 w1 w2 w3 w4 := isSome_validate_iff
  rw [and_iff_right rfl, and_comm] at htests
  exact htests

open Sys2Proof Sys2Proof.Machine in
/-- Settles O7: a frame with errors passes exactly when the markers have none and the errors' own checksum is 0, which one
flipped bit alone never is. -/
theorem singleBitErrorsAreRejected : Obligations.SingleBitErrorsAreRejected := by
  constructor
  · exact fun a1 a2 i k b hk hb => validate_set_xor hb (twoPow_ne_zero hk)
  · intro b1 b2 b3 b4 e1 e2 e3 e4 e5
    rw [chk4_xor_eq_iff, chk4_eq_iff_parity]

open Sys2Proof Sys2Proof.Machine in
/-- Settles O8: one lemma per weakness; the swapped frame is the frame of the swapped pair, since its checksum is the same. -/
theorem checksumWeaknessesAreKept : Obligations.ChecksumWeaknessesAreKept := by
  intro a1 a2 d
  refine ⟨checksum_swap a1 a2, checksum_swapBytes a1 a2, checksum_self a1, checksum_xor_both a1 a2 d, ?swapped,
    fun v => ⟨checksum_zero_setWidth v, inDomain_setWidth v⟩⟩
  rw [checksum_swap]
  exact validate_encodeFrame a2 a1

namespace Sys2Proof.Machine

/-! ## Decoding and steps (R31, R56, R62, R163) -/

/-- The table of R56, row by row. -/
theorem decodeSel_table (sel : BitVec 3) (a1 a2 : Angle) (b : Byte) :
    decodeSel sel a1 a2 b =
      if sel.getLsbD 2 then .ok .rst []
      else if sel.getLsbD 1 then .ok (.enc a1 a2) (if sel.getLsbD 0 then [portRequest 0b001 a1 a2 b] else [])
      else if sel.getLsbD 0 then .ok (.rxb b) [] else .ok .nop [] := by
  have hrows : ∀ sel : BitVec 3,
      selMatches sel 0b100 0b100 = sel.getLsbD 2 ∧
      selMatches sel 0b110 0b010 = (!sel.getLsbD 2 && sel.getLsbD 1) ∧
      selMatches sel 0b101 0b001 = (!sel.getLsbD 2 && sel.getLsbD 0) := by decide
  obtain ⟨hrst, henc, hrxb⟩ := hrows sel
  rw [decodeSel, hrst, henc, hrxb]
  cases sel.getLsbD 2 <;> cases sel.getLsbD 1 <;> cases sel.getLsbD 0 <;> rfl

/-- What the ports ask for is an operation that is no burst, so it is well-formed. -/
theorem wellFormed_of_decodePorts {bs : List Byte} {i : Instr} {rest : List Request}
    (h : decodePorts bs = .ok i rest) : i.wellFormed = true := by
  unfold decodePorts at h
  split at h
  · split at h
    · rw [decodeSel_table] at h
      split_ifs at h <;> cases h <;> rfl
    · cases h
  · cases h

theorem decodeAngles_eq_ok {mk : Angle → Angle → Instr} {bs : List Byte} {i : Instr} {rest : List Request}
    (h : decodeAngles mk bs = .ok i rest) :
    rest = [] ∧ ∃ a1 a2, i = mk a1 a2 ∧ bs = [hi8 a1, lo8 a1, hi8 a2, lo8 a2] := by
  unfold decodeAngles at h
  split at h
  · cases h
    exact ⟨rfl, _, _, rfl, by simp only [hi8_cat16, lo8_cat16]⟩
  · cases h

theorem decodeWindow_eq_ok {mk : Byte → Byte → Byte → Byte → Byte → Byte → Byte → Instr} {bs : List Byte} {i : Instr}
    {rest : List Request} (h : decodeWindow mk bs = .ok i rest) :
    rest = [] ∧ ∃ w0 w1 w2 w3 w4 w5 w6, i = mk w0 w1 w2 w3 w4 w5 w6 ∧ bs = [w0, w1, w2, w3, w4, w5, w6] := by
  unfold decodeWindow at h
  split at h
  · cases h
    exact ⟨rfl, _, _, _, _, _, _, _, rfl, rfl⟩
  · cases h

theorem decodeBurst_eq_ok {bs : List Byte} {i : Instr} {rest : List Request} (h : decodeBurst bs = .ok i rest) :
    rest = [] ∧ i = .rxs bs ∧ i.wellFormed = true := by
  cases bs with
  | nil => cases h
  | cons b bs => cases h; exact ⟨rfl, rfl, rfl⟩

/-- A call that decodes is the encoding of a well-formed operation, byte for byte. -/
theorem encode_of_decode_call {r : Request} {i : Instr} {rest : List Request} (hfmt : r.fmt ≠ .sel3)
    (h : decode r = .ok i rest) : encode i = r ∧ rest = [] ∧ i.wellFormed = true := by
  obtain ⟨fmt, bs⟩ := r
  cases fmt with
  | sel3 => exact absurd rfl hfmt
  | chk | loop =>
    obtain ⟨rfl, a1, a2, rfl, rfl⟩ := decodeAngles_eq_ok h
    exact ⟨rfl, rfl, rfl⟩
  | val | dec =>
    obtain ⟨rfl, _, _, _, _, _, _, _, rfl, rfl⟩ := decodeWindow_eq_ok h
    exact ⟨rfl, rfl, rfl⟩
  | frame56 =>
    obtain ⟨rfl, _, _, _, _, _, _, _, rfl, rfl⟩ := decodeWindow_eq_ok h
    exact ⟨by rw [encode, wireBytes_flatten7], rfl, rfl⟩
  | rxs =>
    obtain ⟨rfl, rfl, hwf⟩ := decodeBurst_eq_ok h
    exact ⟨rfl, rfl, hwf⟩

/-- What decodes is well-formed, a call by its inversion, a presentation of the ports by the table of `sel`. -/
theorem wellFormed_of_decode {r : Request} {i : Instr} {rest : List Request} (h : decode r = .ok i rest) :
    i.wellFormed = true := by
  by_cases hfmt : r.fmt = .sel3
  · rw [decode, hfmt] at h
    exact wellFormed_of_decodePorts h
  · obtain ⟨-, -, hwf⟩ := encode_of_decode_call hfmt h
    exact hwf

/-- A step runs what the head of the queue decodes to, with what it still asks for put first (R31). -/
theorem step_of_pending_cons {s : State} {r : Request} {later rest : List Request} {i : Instr}
    (h : s.pending = r :: later) (hd : decode r = .ok i rest) : step s = exec i (s.setPending (rest ++ later)) := by
  simp only [step, nextDecoded_of_pending_cons h, hd, takeRequest, nextRequest, h]

/-- With nothing asked for, the step is `NOP` (R163). -/
theorem step_of_pending_nil {s : State} (h : s.pending = []) : step s = exec .nop s := by
  have hsame : s.setPending [] = s := by rw [← h]; rfl
  simp only [step, nextDecoded_of_pending_nil h, takeRequest, nextRequest, h, List.append_nil, hsame]

theorem step_refused {s : State} {r : Request} {later : List Request} {e : DecodeError} (h : s.pending = r :: later)
    (hd : decode r = .bad e) : step s = .refused (.noSuchRequest e) := by
  simp only [step, nextDecoded_of_pending_cons h, hd]

/-- `NOP` shows a step without event and changes no other field (R163). -/
theorem exec_nop (s : State) : exec .nop s = .next { s with outs := [quietOut] } := by
  have hstep : exec .nop s = .next (outStep quietOut s.begin) := rfl
  rw [hstep, outStep_begin, List.append_nil]

/-- An idle step shows no event and changes no other field (R163). -/
theorem step_idle {s : State} (h : s.pending = []) : step s = .next { s with outs := [quietOut] } := by
  rw [step_of_pending_nil h, exec_nop]

/-! ### No operation reads the queue -/

theorem rxbStep_setPending (p : List Request) (b : Byte) (s : State) :
    rxbStep b (s.setPending p) = (rxbStep b s).setPending p := by
  have hframer : (s.setPending p).framer = s.framer := rfl
  simp only [rxbStep, hframer]
  cases (framerStep s.framer b).2 <;> rfl

theorem rxsSteps_setPending (p : List Request) (bs : List Byte) (s : State) :
    rxsSteps bs (s.setPending p) = (rxsSteps bs s).setPending p := by
  induction bs generalizing s with
  | nil => rfl
  | cons b bs ih => rw [rxsSteps_cons, rxsSteps_cons, rxbStep_setPending, ih]

/-- The queue is no part of what an operation reads or writes: executing commutes with setting it. -/
theorem exec_setPending {i : Instr} {s t : State} (h : exec i s = .next t) (p : List Request) :
    exec i (s.setPending p) = .next (t.setPending p) := by
  cases i with
  | rxb b => cases h; exact congrArg Host.Outcome.next (rxbStep_setPending p b s.begin)
  | rxs bs => cases h; exact congrArg Host.Outcome.next (rxsSteps_setPending p bs s.begin)
  | loop a1 a2 => cases h; exact congrArg Host.Outcome.next (rxsSteps_setPending p _ (encStep a1 a2 s.begin))
  | _ => cases h; rfl

/-- A queued trace of well-formed operations runs them in order, one a step (R31). -/
theorem runSteps_trace {is : List Instr} (hwf : ∀ i ∈ is, i.wellFormed = true) {s : State} (hs : s.pending = []) :
    runSteps is.length (s.setPending (is.map encode)) = execAll is s := by
  induction is generalizing s with
  | nil =>
    rw [execAll_nil, List.map_nil, ← hs]
    rfl
  | cons i is ih =>
    rw [List.forall_mem_cons] at hwf
    obtain ⟨hi, his⟩ := hwf
    obtain ⟨t, ht⟩ := exec_completes i s
    have hstep : step (s.setPending ((i :: is).map encode)) = .next (t.setPending (is.map encode)) := by
      rw [step_of_pending_cons rfl (decode_encode hi)]
      exact exec_setPending ht _
    have hpending : t.pending = [] := (exec_streamsGrow ht).pending.trans hs
    rw [List.length_cons, runSteps_succ hstep, ih his hpending, execAll_cons ht]

/-! ### No operation reads the counter (R19) -/

theorem sameButCounter_iff {s t : State} :
    SameButCounter s t ↔ ∃ c n, t = { s with cfg := c, discardCnt := n } := by
  constructor
  · exact fun h => ⟨_, _, h⟩
  · rintro ⟨c, n, rfl⟩
    rfl

theorem sameButCounter_rxbStep (b : Byte) {s t : State} (h : SameButCounter s t) :
    SameButCounter (rxbStep b s) (rxbStep b t) := by
  obtain ⟨c, n, rfl⟩ := sameButCounter_iff.mp h
  have hframer : State.framer { s with cfg := c, discardCnt := n } = s.framer := rfl
  simp only [rxbStep, hframer]
  cases (framerStep s.framer b).2 <;> rfl

theorem sameButCounter_rxsSteps (bs : List Byte) {s t : State} (h : SameButCounter s t) :
    SameButCounter (rxsSteps bs s) (rxsSteps bs t) := by
  induction bs generalizing s t with
  | nil => exact h
  | cons b bs ih => exact ih (sameButCounter_rxbStep b h)

theorem sameButCounter_exec {i : Instr} {s t s' t' : State} (h : SameButCounter s t) (hs : exec i s = .next s')
    (ht : exec i t = .next t') : SameButCounter s' t' := by
  obtain ⟨c, n, rfl⟩ := sameButCounter_iff.mp h
  cases i with
  | rxb b => cases hs; cases ht; exact sameButCounter_rxbStep b rfl
  | rxs bs => cases hs; cases ht; exact sameButCounter_rxsSteps bs rfl
  | loop a1 a2 => cases hs; cases ht; exact sameButCounter_rxsSteps _ rfl
  | _ => cases hs; cases ht; rfl

end Sys2Proof.Machine

open Sys2Proof Sys2Proof.Machine in
/-- Settles O24: `rstStep` writes the reset values over the receive state and keeps the histories, and `sel` 1xx selects
`RST` whatever the other two bits are. -/
theorem rstRestoresTheResetState : Obligations.RstRestoresTheResetState := by
  refine ⟨fun s => rfl, ?twice, ?ports⟩
  case twice =>
    intro s t h
    cases h
    rfl
  case ports =>
    intro sel a1 a2 b h
    rw [decode_portRequest, decodeSel_table, if_pos h]

open Sys2Proof Sys2Proof.Machine in
/-- Settles O25: the fields of `State.reset`. -/
theorem resetStateValues : Obligations.ResetStateValues :=
  ⟨rfl, rfl, rfl, rfl, rfl, rfl, rfl, rfl, rfl, rfl, rfl, rfl⟩

open Sys2Proof Sys2Proof.Machine in
/-- Settles O26: an idle step is `NOP`, which shows a quiet step, keeps the queue empty, and so can be taken again. -/
theorem idleStepsChangeNothing : Obligations.IdleStepsChangeNothing := by
  refine ⟨exec_nop, fun s n hs => ?_⟩
  induction n generalizing s with
  | zero => rw [runSteps_succ (step_idle hs), runSteps_zero]
  | succ n ih => exact (runSteps_succ (step_idle hs)).trans (ih _ hs)

open Sys2Proof Sys2Proof.Machine in
/-- Settles O29: each step an operation is made of keeps the relation, and no operation writes the width. -/
theorem counterIsReadByNothing : Obligations.CounterIsReadByNothing := by
  intro i s t h
  obtain ⟨s', hs'⟩ := exec_completes i s
  obtain ⟨t', ht'⟩ := exec_completes i t
  exact ⟨s', t', hs', ht', sameButCounter_exec h hs' ht', (exec_streamsGrow hs').cfg, (exec_streamsGrow ht').cfg⟩

open Sys2Proof Sys2Proof.Machine in
/-- Settles O32: `decodeSel_table`, one value of the three bits after the other. -/
theorem selectionFollowsItsTable : Obligations.SelectionFollowsItsTable := by
  intro sel a1 a2 b
  rw [decode_portRequest, decodeSel_table]
  cases sel.getLsbD 2 <;> cases sel.getLsbD 1 <;> cases sel.getLsbD 0 <;> rfl

open Sys2Proof Sys2Proof.Machine in
/-- Settles O34: a call is inverted byte for byte, the ports ask for well-formed operations only, and those decode back. -/
theorem encodeDecodeRoundTrip : Obligations.EncodeDecodeRoundTrip := by
  intro r i rest h
  have hwf : i.wellFormed = true := wellFormed_of_decode h
  refine ⟨hwf, fun hfmt => ?_, decode_encode hwf⟩
  obtain ⟨hencode, hrest, -⟩ := encode_of_decode_call hfmt h
  exact ⟨hencode, hrest⟩

open Sys2Proof Sys2Proof.Machine in
/-- Settles O36: closed words, decoded by evaluation. -/
theorem specWordsDecode : Obligations.SpecWordsDecode := by
  unfold Obligations.SpecWordsDecode
  decide

open Sys2Proof Sys2Proof.Machine in
/-- Settles O37: the three heads a queue can have. -/
theorem stepRunsTheDecodedOperation : Obligations.StepRunsTheDecodedOperation :=
  ⟨fun _ _ _ _ _ => step_of_pending_cons, fun _ => step_of_pending_nil, fun _ _ _ _ => step_refused⟩

open Sys2Proof Sys2Proof.Machine in
/-- Settles O39: `loadTrace` queues the trace behind an empty queue, which `runSteps_trace` runs. -/
theorem traceRunsInOrder : Obligations.TraceRunsInOrder := by
  intro is s hwf hs
  rw [loadTrace, hs, List.nil_append]
  exact runSteps_trace hwf hs

open Sys2Proof Sys2Proof.Machine in
/-- Settles O41: nothing is collected, counted, sent or received yet. -/
theorem resetMeetsTheInvariants : Obligations.ResetMeetsTheInvariants := by
  have hinv (c : Config) (hc : 0 < c.discardW) : (State.resetWith c).Inv :=
    ⟨framerOk_idle, openWindowIn_of_seekStart (f := Framer.idle) rfl _, counterOk_zero hc rfl, ⟨[], rfl⟩,
      by simp [OneEventPerStep, State.resetWith, rdValid]⟩
  refine ⟨fun c hc => ⟨hinv c hc, ?received, ?disjoint⟩, hinv Config.standard (by decide)⟩
  case received => simp [ReadingsWereReceived, State.resetWith]
  case disjoint => exact ⟨[], [], rfl, rfl, openWindowIn_of_seekStart (f := Framer.idle) rfl _⟩

namespace Sys2Proof.Machine

/-! ## A burst is the framer run over its bytes (R62, R108) -/

theorem emittedReadings_append (es es' : List Event) :
    emittedReadings (es ++ es') = emittedReadings es ++ emittedReadings es' := by
  induction es with
  | nil => rfl
  | cons e es ih => cases e <;> simp [emittedReadings, ih]

theorem countDiscards_append (es es' : List Event) :
    countDiscards (es ++ es') = countDiscards es + countDiscards es' := by
  induction es with
  | nil => simp [countDiscards]
  | cons e es ih => cases e <;> simp [countDiscards, ih, Nat.add_right_comm]

@[simp] theorem emittedReadings_quiet (n : Nat) : emittedReadings (List.replicate n Event.quiet) = [] := by
  induction n with
  | zero => rfl
  | succ n ih => rw [List.replicate_succ, emittedReadings, ih]

@[simp] theorem countDiscards_quiet (n : Nat) : countDiscards (List.replicate n Event.quiet) = 0 := by
  induction n with
  | zero => rfl
  | succ n ih => rw [List.replicate_succ, countDiscards, ih]

/-- The state after the bytes `bs` have moved the framer to `f` with the events `es`: what R104 and R105 record of them, said at
once for all bytes. -/
def State.receive (s : State) (bs : List Byte) (f : Framer) (es : List Event) : State :=
  { s with
    rxState := f.rxState
    acc := f.acc
    discardCnt := (bumpDiscard s.cfg)^[countDiscards es] s.discardCnt
    outs := s.outs ++ es.map eventOut
    rxs := s.rxs ++ bs
    rds := s.rds ++ emittedReadings es }

@[simp] theorem State.receive_framer (s : State) (bs : List Byte) (f : Framer) (es : List Event) :
    (s.receive bs f es).framer = f := rfl

theorem State.receive_nil (s : State) : s.receive [] s.framer [] = s := by
  simp [State.receive, emittedReadings, countDiscards]

/-- Receiving is cumulative: later bytes and events come behind the earlier ones. -/
theorem State.receive_receive (s : State) (bs bs' : List Byte) (f f' : Framer) (es es' : List Event) :
    (s.receive bs f es).receive bs' f' es' = s.receive (bs ++ bs') f' (es ++ es') := by
  simp [State.receive, emittedReadings_append, countDiscards_append, Nat.add_comm (countDiscards es),
    Function.iterate_add_apply]

theorem rxbStep_eq_receive (b : Byte) (s : State) :
    rxbStep b s = s.receive [b] (framerStep s.framer b).1 [(framerStep s.framer b).2] := by
  simp only [rxbStep, State.receive]
  cases (framerStep s.framer b).2 <;> simp [State.consume, State.setFramer, State.putOut, State.emitReading,
    State.countDiscard, emittedReadings, countDiscards]

/-- A run of `RXB` steps is one run of the framer, with its events recorded (R62, R108). -/
theorem rxsSteps_eq_receive (bs : List Byte) (s : State) :
    rxsSteps bs s = s.receive bs (runFramer s.framer bs).1 (runFramer s.framer bs).2 := by
  induction bs generalizing s with
  | nil => exact s.receive_nil.symm
  | cons b bs ih =>
    rw [rxsSteps_cons, ih, rxbStep_eq_receive, State.receive_framer, State.receive_receive]
    rfl

/-- `RXS` completes with what the framer's run says: its end state written, its events shown and recorded. -/
theorem exec_rxs {s : State} {bs : List Byte} {f : Framer} {es : List Event} (h : runFramer s.framer bs = (f, es)) :
    exec (.rxs bs) s = .next (s.begin.receive bs f es) := by
  have hstep : exec (.rxs bs) s = .next (rxsSteps bs s.begin) := rfl
  have hrun : runFramer s.begin.framer bs = (f, es) := h
  rw [hstep, rxsSteps_eq_receive, hrun]

/-- `RXS` from `(SEEK_START, [])`, whatever else the state holds. -/
theorem exec_rxs_of_idle {s : State} {bs : List Byte} {f : Framer} {es : List Event} (hidle : s.framer = Framer.idle)
    (h : runFramer Framer.idle bs = (f, es)) : exec (.rxs bs) s = .next (s.begin.receive bs f es) :=
  exec_rxs (by rw [hidle, h])

/-- A run of `RXB` steps shows the same after whatever was shown before it. -/
theorem rxsSteps_eq_begin (bs : List Byte) (s : State) :
    rxsSteps bs s = { rxsSteps bs s.begin with outs := s.outs ++ (rxsSteps bs s.begin).outs } := by
  rw [rxsSteps_eq_receive, rxsSteps_eq_receive]
  rfl

/-- The counter goes up by the number of discards, modulo its width (R19). -/
theorem iterate_bumpDiscard (c : Config) {n : Nat} (h : n < 2 ^ c.discardW) (k : Nat) :
    (bumpDiscard c)^[k] n = (n + k) % 2 ^ c.discardW := by
  induction k with
  | zero => exact (Nat.mod_eq_of_lt h).symm
  | succ k ih => rw [Function.iterate_succ_apply', ih, bumpDiscard, Nat.mod_add_mod, Nat.add_assoc]

/-! ## The framer over a stream from `(SEEK_START, [])` (R102 to R106) -/

/-- A byte that is no START is passed over (R102). -/
theorem runFramer_idle_skip {b : Byte} (hb : b ≠ START) (bs : List Byte) :
    runFramer Framer.idle (b :: bs) = ((runFramer Framer.idle bs).1, .quiet :: (runFramer Framer.idle bs).2) := by
  rw [runFramer_cons, framerStep_skip rfl hb]

/-- The bytes of a stream without START are passed over (R102). -/
theorem runFramer_idle_skip_all {before : List Byte} (h : START ∉ before) (bs : List Byte) :
    runFramer Framer.idle (before ++ bs) =
      ((runFramer Framer.idle bs).1, List.replicate before.length Event.quiet ++ (runFramer Framer.idle bs).2) := by
  induction before with
  | nil => rfl
  | cons b before ih =>
    rw [List.mem_cons, not_or] at h
    obtain ⟨hb, hbefore⟩ := h
    rw [List.cons_append, runFramer_idle_skip (Ne.symm hb), ih hbefore]
    rfl

/-- The first six bytes show no event and leave the framer where a re-seek over them does (R106, R107). -/
theorem runFramer_idle_append {bs : List Byte} (h : bs.length ≤ 6) (rest : List Byte) :
    runFramer Framer.idle (bs ++ rest) =
      ((runFramer (seek bs) rest).1, List.replicate bs.length Event.quiet ++ (runFramer (seek bs) rest).2) := by
  rw [runFramer_append, runFramer_short h]

/-- The seventh byte of a window that begins with START validates it (R103). -/
theorem framerStep_window {acc : List Byte} (h : acc.length = accCap) (b : Byte) :
    framerStep (seek (START :: acc)) b = validateStep (window acc b) := by
  simp [framerStep, h]

/-- Seven bytes that begin with START are one window: six quiet steps, then its event (R103, R104, R105). -/
theorem runFramer_idle_window {rest : List Byte} (h : rest.length = 6) :
    runFramer Framer.idle (START :: rest) =
      ((validateStep (START :: rest)).1, List.replicate 6 Event.quiet ++ [(validateStep (START :: rest)).2]) := by
  obtain rfl | ⟨acc, b, rfl⟩ := List.eq_nil_or_concat' rest
  · cases h
  have hacc : acc.length = accCap := by simpa [accCap] using h
  have hsix : (START :: acc).length = 6 := by simp [hacc, accCap]
  rw [← List.cons_append, runFramer_idle_append (by omega), runFramer_cons, framerStep_window hacc, hsix]
  rfl

/-- A sound frame is emitted in its last step and leaves the framer where it was (R104, R114). -/
theorem runFramer_idle_frame (r : Reading) (rest : List Byte) :
    runFramer Framer.idle (encodeFrame r.a1 r.a2 ++ rest) =
      ((runFramer Framer.idle rest).1, List.replicate 6 Event.quiet ++ .emit r :: (runFramer Framer.idle rest).2) := by
  have hframe : runFramer Framer.idle (encodeFrame r.a1 r.a2) = (Framer.idle, List.replicate 6 Event.quiet ++ [.emit r]) := by
    have hv : validateStep (encodeFrame r.a1 r.a2) = (Framer.idle, .emit r) := by simp [validateStep]
    have hwindow := runFramer_idle_window (rest := (encodeFrame r.a1 r.a2).tail) rfl
    rw [show START :: (encodeFrame r.a1 r.a2).tail = encodeFrame r.a1 r.a2 from rfl, hv] at hwindow
    exact hwindow
  rw [runFramer_append, hframe, List.append_assoc]
  rfl

/-- A rejected window costs one discard and only its START: but for the discard, the framer goes on as over the stream that begins
a byte later (R105, R106). -/
theorem runFramer_idle_reject {tail rest : List Byte} {f : Framer} {es : List Event} (h : tail.length = 6)
    (hv : validate (START :: tail) = none) (hrun : runFramer Framer.idle (tail ++ rest) = (f, es)) :
    ∃ later, es = List.replicate 6 Event.quiet ++ later ∧
      runFramer Framer.idle (START :: (tail ++ rest)) = (f, List.replicate 6 Event.quiet ++ .discard :: later) := by
  have hstep : validateStep (START :: tail) = (seek tail, .discard) := by simp [validateStep, hv]
  rw [runFramer_idle_append h.le, h, Prod.mk.injEq] at hrun
  obtain ⟨rfl, rfl⟩ := hrun
  refine ⟨_, rfl, ?_⟩
  rw [← List.cons_append, runFramer_append, runFramer_idle_window h, hstep, List.append_assoc]
  rfl

/-- The events of frames end to end. -/
def frameEvents (rs : List Reading) : List Event := rs.flatMap fun r => List.replicate 6 Event.quiet ++ [.emit r]

theorem frameEvents_cons (r : Reading) (rs : List Reading) :
    frameEvents (r :: rs) = List.replicate 6 Event.quiet ++ .emit r :: frameEvents rs := rfl

/-- Frames end to end are emitted one after the other (R112). -/
theorem runFramer_idle_frames (rs : List Reading) :
    runFramer Framer.idle (rs.flatMap fun r => encodeFrame r.a1 r.a2) = (Framer.idle, frameEvents rs) := by
  induction rs with
  | nil => rfl
  | cons r rs ih => rw [List.flatMap_cons, runFramer_idle_frame, ih, frameEvents_cons]

theorem emittedReadings_frameEvents (rs : List Reading) : emittedReadings (frameEvents rs) = rs := by
  induction rs with
  | nil => rfl
  | cons r rs ih => rw [frameEvents_cons, emittedReadings_append, emittedReadings_quiet, emittedReadings, ih]; rfl

theorem countDiscards_frameEvents (rs : List Reading) : countDiscards (frameEvents rs) = 0 := by
  induction rs with
  | nil => rfl
  | cons r rs ih => rw [frameEvents_cons, countDiscards_append, countDiscards_quiet, countDiscards, ih]

/-- Frames end to end change no field but the streams and the outputs (R112). -/
theorem receive_frames {s : State} (h : s.framer = Framer.idle) (rs : List Reading) :
    rxsSteps (rs.flatMap fun r => encodeFrame r.a1 r.a2) s =
      { s with
        rxs := s.rxs ++ rs.flatMap fun r => encodeFrame r.a1 r.a2
        rds := s.rds ++ rs
        outs := s.outs ++ rs.flatMap fun r => List.replicate 6 quietOut ++ [eventOut (.emit r)] } := by
  obtain ⟨hrx, hacc⟩ := Framer.mk.inj h
  rw [rxsSteps_eq_receive, h, runFramer_idle_frames, State.receive, emittedReadings_frameEvents,
    countDiscards_frameEvents]
  simp [frameEvents, hrx, hacc, List.map_flatMap, eventOut]

/-- The event of a validation, and the Reading it records, say whether the window was accepted (R104, R105). -/
theorem validateStep_event (win : List Byte) :
    (validateStep win).2 ≠ .quiet ∧ emittedReadings [(validateStep win).2] = (validate win).toList := by
  cases hv : validate win <;> simp [validateStep, hv, emittedReadings]

end Sys2Proof.Machine

open Sys2Proof Sys2Proof.Machine in
/-- Settles O14: `exec_rxs`, with the counter's additions joined into one. -/
theorem burstIsTheFramerOverItsBytes : Obligations.BurstIsTheFramerOverItsBytes := by
  rintro bs s ⟨-, hlt⟩
  rw [exec_rxs rfl, State.receive, State.begin_cfg, State.begin_discardCnt, iterate_bumpDiscard s.cfg hlt]
  rfl

open Sys2Proof Sys2Proof.Machine in
/-- Settles O15: a run over `xs ++ ys` goes on with `ys` where `xs` ended, and shows the same after any outputs. -/
theorem chunkingDoesNotMatter : Obligations.ChunkingDoesNotMatter := by
  refine ⟨fun xs ys s => ⟨rxsSteps xs s.begin, rxsSteps ys (rxsSteps xs s.begin).begin, rfl, rfl, ?_⟩, fun _ _ => rfl⟩
  rw [← rxsSteps_eq_begin, ← rxsSteps_append]
  rfl

open Sys2Proof Sys2Proof.Machine in
/-- Settles O16: the burst shows the same after the step of `ENC` as alone. -/
theorem loopIsEncThenBurst : Obligations.LoopIsEncThenBurst := by
  intro a1 a2 s
  refine ⟨encStep a1 a2 s.begin, rxsSteps (encodeFrame a1 a2) (encStep a1 a2 s.begin).begin, rfl, rfl, ?_⟩
  rw [← rxsSteps_eq_begin]
  rfl

open Sys2Proof Sys2Proof.Machine in
/-- Settles O17: `LOOP`'s burst is the clean stream of one frame. -/
theorem loopReturnsTheReading : Obligations.LoopReturnsTheReading := by
  intro a1 a2 s hrx hacc
  have hidle : (encStep a1 a2 s.begin).framer = Framer.idle := congrArg₂ Framer.mk hrx hacc
  have hrun := receive_frames hidle [⟨a1, a2⟩]
  simp only [List.flatMap_cons, List.flatMap_nil, List.append_nil] at hrun
  exact congrArg Host.Outcome.next hrun

open Sys2Proof Sys2Proof.Machine in
/-- Settles O18: bytes that begin with START are one window and its validation; others are one byte passed over and a re-seek
over six. -/
theorem decAgreesWithTheFramer : Obligations.DecAgreesWithTheFramer := by
  intro f0 f1 f2 f3 f4 f5 f6 s hidle
  by_cases h0 : f0 = START
  · subst h0
    obtain ⟨hevent, hreading⟩ := validateStep_event [START, f1, f2, f3, f4, f5, f6]
    have hrun := runFramer_idle_window (rest := [f1, f2, f3, f4, f5, f6]) rfl
    refine ⟨_, exec_rxs_of_idle hidle hrun, ?_, fun h => absurd rfl h, fun _ => ⟨_, hevent, rfl⟩⟩
    rw [← hreading]
    rfl
  · have hrun : runFramer Framer.idle [f0, f1, f2, f3, f4, f5, f6] =
        (seek [f1, f2, f3, f4, f5, f6], List.replicate 7 Event.quiet) := by
      rw [runFramer_idle_skip h0, runFramer_short (by simp)]
      rfl
    have hnone : validate [f0, f1, f2, f3, f4, f5, f6] = none := by
      rw [← Option.not_isSome_iff_eq_none, isSome_validate_iff]
      exact fun h => h0 h.1
    refine ⟨_, exec_rxs_of_idle hidle hrun, ?_, fun _ => rfl, fun h => absurd h h0⟩
    rw [hnone]
    rfl

open Sys2Proof Sys2Proof.Machine in
/-- Settles O19: one event is one flag, six bytes are a re-seek, and an emit leaves the framer idle. -/
theorem eventsAreSpaced : Obligations.EventsAreSpaced := by
  refine ⟨fun _ _ _ => exec_oneEventPerStep, ?sixBytes, ?emit⟩
  case sixBytes =>
    intro bs s hidle hlen
    exact ⟨_, exec_rxs_of_idle hidle (runFramer_short hlen), by simp [State.receive, eventOut]⟩
  case emit =>
    intro b s t o h ho hrd
    cases h
    rw [rxbStep_outs, State.begin_outs, List.nil_append, List.mem_singleton] at ho
    subst ho
    rw [rxbStep_framer]
    cases he : (framerStep s.begin.framer b).2 with
    | quiet | discard => simp [he, eventOut, quietOut, rdValid] at hrd
    | emit r =>
      obtain ⟨-, -, hidle⟩ := framerStep_eq_emit he
      exact hidle

open Sys2Proof Sys2Proof.Machine in
/-- Settles O22: the run over a clean stream, said on the state. -/
theorem cleanStreamIsEmittedFrameForFrame : Obligations.CleanStreamIsEmittedFrameForFrame :=
  fun rs s hidle => congrArg Host.Outcome.next (receive_frames (s := s.begin) hidle rs)

open Sys2Proof Sys2Proof.Machine in
/-- Settles O23: the rejected mixed window costs one discard, behind which the framer goes on as over `cut` and the frame alone,
which are bytes passed over and an emit. -/
theorem cutFrameCostsOneDiscard : Obligations.CutFrameCostsOneDiscard := by
  intro cut a1 a2 s hidle hlen hcut hv
  have hnext : runFramer Framer.idle (cut ++ encodeFrame a1 a2) =
      (Framer.idle, List.replicate cut.length Event.quiet ++ frameEvents [⟨a1, a2⟩]) := by
    have hframe := runFramer_idle_frames [⟨a1, a2⟩]
    rw [List.flatMap_cons, List.flatMap_nil, List.append_nil] at hframe
    rw [runFramer_idle_skip_all hcut, hframe]
  have htail : ((cut ++ encodeFrame a1 a2).take 6).length = 6 := by simp
  rw [← List.take_append_drop 6 (cut ++ encodeFrame a1 a2)] at hnext
  obtain ⟨later, hlater, hrun⟩ := runFramer_idle_reject htail hv hnext
  rw [List.take_append_drop] at hrun
  have hreadings := congrArg emittedReadings hlater
  have hdiscards := congrArg countDiscards hlater
  simp only [emittedReadings_append, emittedReadings_quiet, emittedReadings_frameEvents, List.nil_append] at hreadings
  simp only [countDiscards_append, countDiscards_quiet, countDiscards_frameEvents, Nat.zero_add] at hdiscards
  refine ⟨_, exec_rxs_of_idle hidle hrun, rfl, ?_, ?_⟩
  · simp [State.receive, emittedReadings, ← hreadings]
  · simp [State.receive, countDiscards, ← hdiscards, bumpDiscard]

open Sys2Proof Sys2Proof.Machine in
/-- Settles O27: `ENC` writes TXS and the outputs, the burst the rest, and neither reads what the other writes. -/
theorem encCommutesWithReception : Obligations.EncCommutesWithReception :=
  fun _ _ _ _ => ⟨_, _, _, _, exec_enc .., exec_rxs rfl, exec_rxs rfl, exec_enc .., rfl, rfl, rfl⟩

open Sys2Proof Sys2Proof.Machine in
/-- Settles O38: `sel` 011 is `ENC` with `sel` 001 left for the next step, and `ENC` and `RXB` write different fields. -/
theorem encAndRxbTogetherTakeTwoSteps : Obligations.EncAndRxbTogetherTakeTwoSteps := by
  intro s a1 a2 b later h
  have hrxb (s : State) : exec (.rxb b) s =
      .next (s.begin.receive [b] (runFramer s.framer [b]).1 (runFramer s.framer [b]).2) := exec_rxs (bs := [b]) rfl
  have hfirst : step s = exec (.enc a1 a2) (s.setPending (portRequest 0b001 a1 a2 b :: later)) :=
    step_of_pending_cons h (decode_portRequest 0b011 a1 a2 b)
  have hsecond {t : State} (ht : t.pending = portRequest 0b001 a1 a2 b :: later) :
      step t = exec (.rxb b) (t.setPending later) := step_of_pending_cons ht (decode_portRequest 0b001 a1 a2 b)
  refine ⟨_, _, ?twoSteps, (execAll_cons (hrxb _)).trans (execAll_cons (exec_enc ..)), ?sameState,
    (execAll_cons (exec_enc ..)).trans (execAll_cons (hrxb _))⟩
  case twoSteps => exact (runSteps_succ (hfirst.trans (exec_enc ..))).trans (runSteps_succ ((hsecond rfl).trans (hrxb _)))
  case sameState => rfl

namespace Sys2Proof.Machine

/-! ## The other forms of the framer (R106, R110, R112) -/

/-! ### Re-seek -/

theorem seek_eq_seekByIndex (bs : List Byte) : seek bs = seekByIndex bs := by
  induction bs with
  | nil => rfl
  | cons b bs ih =>
    by_cases hb : b = START
    · subst hb
      rw [seek_start]
      simp [seekByIndex, List.findIdx?_cons]
    · rw [seek_skip hb, ih]
      simp only [seekByIndex, List.findIdx?_cons, beq_eq_false_iff_ne.mpr hb, Bool.false_eq_true, if_false]
      cases List.findIdx? (fun b => b == START) bs <;> rfl

/-- Once a window is open, a replay collects (R103). -/
theorem foldl_collectStep_collecting (acc bs : List Byte) :
    bs.foldl collectStep ⟨.collecting, acc⟩ = ⟨.collecting, acc ++ bs⟩ := by
  induction bs generalizing acc with
  | nil => rw [List.append_nil]; rfl
  | cons b bs ih =>
    rw [List.foldl_cons, collectStep, ih, List.append_assoc]
    rfl

theorem seek_eq_replay (bs : List Byte) : seek bs = replay bs := by
  induction bs with
  | nil => rfl
  | cons b bs ih =>
    by_cases hb : b = START
    · subst hb
      rw [seek_start]
      exact (foldl_collectStep_collecting [] bs).symm
    · have hstep : collectStep Framer.idle b = Framer.idle := by simp [collectStep, hb]
      rw [seek_skip hb, ih, replay, replay, List.foldl_cons]
      exact congrArg (fun f => bs.foldl collectStep f) hstep.symm

/-! ### Sliding window -/

/-- The framer behind at most five bytes takes one more byte without an event (R106). -/
theorem framerStep_seek {bs : List Byte} (h : bs.length ≤ 5) (b : Byte) :
    framerStep (seek bs) b = (seek (bs ++ [b]), .quiet) := by
  have hlen : (bs ++ [b]).length ≤ 6 := by simpa using Nat.succ_le_succ h
  have hrun := runFramer_idle_append (Nat.le_succ_of_le h) [b]
  rw [runFramer_short hlen, runFramer_cons, Prod.mk.injEq, List.length_append, List.replicate_add] at hrun
  obtain ⟨hseek, hevents⟩ := hrun
  have hevent : Event.quiet = (framerStep (seek bs) b).2 := by simpa using hevents
  exact Prod.ext hseek.symm hevent.symm

/-- Behind six bytes, one more completes a window if the first of them is START, and is one more byte of a re-seek otherwise. -/
theorem framerStep_seek_six {x : Byte} {bs : List Byte} (h : bs.length = 5) (b : Byte) :
    framerStep (seek (x :: bs)) b =
      if x = START then validateStep (x :: bs ++ [b]) else (seek (bs ++ [b]), .quiet) := by
  split
  next hx => subst hx; exact framerStep_window h b
  next hx => rw [seek_skip hx, framerStep_seek h.le]

/-- The bytes of the register at which a window may still begin: the fresh ones, but not the oldest of seven, whose window has been
tried. -/
def Sliding.candidates (w : Sliding) : List Byte := w.sr.drop (7 - min w.fresh 6)

/-- The register is full and the framer stands where a re-seek over the candidates does. -/
structure Sliding.Simulates (w : Sliding) (f : Framer) : Prop where
  length : w.sr.length = 7
  framer : f = seek w.candidates

/-- Too few fresh bytes for a window: the new byte becomes a candidate. -/
theorem slidingStep_fill {x : Byte} {six : List Byte} {fresh : Nat} (h : fresh < 6) (b : Byte) :
    slidingStep ⟨x :: six, fresh⟩ b = (⟨six ++ [b], fresh + 1⟩, .quiet) := by
  have hfresh : min (fresh + 1) 7 = fresh + 1 := by omega
  have hfew : fresh + 1 ≠ 7 := by omega
  simp [slidingStep, hfresh, hfew]

/-- Six fresh bytes and the new one make a window if the oldest of them is START. -/
theorem slidingStep_full {x y : Byte} {five : List Byte} {fresh : Nat} (h : 6 ≤ fresh) (b : Byte) :
    (slidingStep ⟨x :: y :: five, fresh⟩ b).1.sr = y :: five ++ [b] ∧
    (slidingStep ⟨x :: y :: five, fresh⟩ b).1.fresh =
      (if y = START ∧ (validate (y :: five ++ [b])).isSome then 0 else 7) ∧
    (slidingStep ⟨x :: y :: five, fresh⟩ b).2 = (if y = START then (validateStep (y :: five ++ [b])).2 else .quiet) := by
  have hfresh : min (fresh + 1) 7 = 7 := by omega
  by_cases hy : y = START
  · cases hv : validate (y :: (five ++ [b])) <;> simp [slidingStep, hfresh, hy, hy ▸ hv, validateStep]
  · simp [slidingStep, hfresh, hy]

/-- What the simulation asks of a step: it is kept, and the events agree. -/
def StepSimulates (w : Sliding) (f : Framer) (b : Byte) : Prop :=
  (slidingStep w b).1.Simulates (framerStep f b).1 ∧ (slidingStep w b).2 = (framerStep f b).2

theorem stepSimulates_fill {x : Byte} {six : List Byte} (hlen : six.length = 6) {fresh : Nat} (h : fresh < 6)
    (b : Byte) : StepSimulates ⟨x :: six, fresh⟩ (seek (Sliding.candidates ⟨x :: six, fresh⟩)) b := by
  have hcand : Sliding.candidates ⟨x :: six, fresh⟩ = six.drop (6 - fresh) := by
    simp [Sliding.candidates, Nat.min_eq_left h.le, Nat.succ_sub h.le]
  have hnext : Sliding.candidates ⟨six ++ [b], fresh + 1⟩ = six.drop (6 - fresh) ++ [b] := by
    simp only [Sliding.candidates, Nat.min_eq_left h, Nat.add_sub_add_right 6 1 fresh]
    exact List.drop_append_of_le_length (by omega)
  rw [StepSimulates, slidingStep_fill h, hcand, framerStep_seek (by rw [List.length_drop]; omega)]
  exact ⟨⟨by simp [hlen], by rw [hnext]⟩, rfl⟩

theorem stepSimulates_full {x y : Byte} {five : List Byte} (hlen : five.length = 5) {fresh : Nat} (h : 6 ≤ fresh)
    (b : Byte) : StepSimulates ⟨x :: y :: five, fresh⟩ (seek (Sliding.candidates ⟨x :: y :: five, fresh⟩)) b := by
  have hcand : Sliding.candidates ⟨x :: y :: five, fresh⟩ = y :: five := by
    simp [Sliding.candidates, Nat.min_eq_right h]
  obtain ⟨hsr, hfresh, hevent⟩ := slidingStep_full (x := x) (y := y) (five := five) h b
  rw [StepSimulates, hcand, framerStep_seek_six hlen, hevent]
  refine ⟨⟨by simp [hsr, hlen], ?_⟩, by split <;> rfl⟩
  rw [Sliding.candidates, hsr, hfresh]
  obtain rfl | hy := eq_or_ne y START
  · have hnone : (five ++ [b]).drop 6 = [] := List.drop_of_length_le (by simp [hlen])
    cases hv : validate (START :: (five ++ [b])) with
    | some r => simp [validateStep, hv, hnone]
    | none => simp [validateStep, hv]
  · simp [hy]

theorem slidingStep_simulates {w : Sliding} {f : Framer} (h : w.Simulates f) (b : Byte) : StepSimulates w f b := by
  obtain ⟨sr, fresh⟩ := w
  obtain ⟨hlen, rfl⟩ := h
  match sr, Nat.lt_or_ge fresh 6 with
  | x :: six, .inl hfew => exact stepSimulates_fill (Nat.succ.inj hlen) hfew b
  | x :: y :: five, .inr hmany => exact stepSimulates_full (Nat.succ.inj (Nat.succ.inj hlen)) hmany b

theorem runSliding_eq {w : Sliding} {f : Framer} (h : w.Simulates f) (bs : List Byte) :
    runSliding w bs = (runFramer f bs).2 := by
  induction bs generalizing w f with
  | nil => rfl
  | cons b bs ih =>
    obtain ⟨hnext, hevent⟩ := slidingStep_simulates h b
    rw [runSliding, runFramer_cons, ih hnext, hevent]

/-! ### Streams, window by window -/

/-- Every stream from `(SEEK_START, [])` is too short for a window, or begins with a byte that is passed over, with a sound frame,
or with a rejected window, of which only START is given up. -/
theorem stream_induct {P : List Byte → Prop} (short : ∀ bs, bs.length ≤ 6 → P bs)
    (skip : ∀ b bs, b ≠ START → P bs → P (b :: bs))
    (frame : ∀ (r : Reading) rest, P rest → P (encodeFrame r.a1 r.a2 ++ rest))
    (reject : ∀ tail rest, tail.length = 6 → validate (START :: tail) = none → P (tail ++ rest) →
      P (START :: (tail ++ rest))) : ∀ bs, P bs
  | [] => short [] (by simp)
  | b :: bs => by
    by_cases hb : b = START
    · subst hb
      by_cases hlen : bs.length < 6
      · exact short _ (by simpa using hlen)
      have htail : (bs.take 6).length = 6 := List.length_take_of_le (Nat.not_lt.mp hlen)
      cases hv : validate (START :: bs.take 6) with
      | none =>
        have hrest := stream_induct short skip frame reject bs
        rw [← List.take_append_drop 6 bs] at hrest ⊢
        exact reject _ _ htail hv hrest
      | some r =>
        have hrest := frame r (bs.drop 6) (stream_induct short skip frame reject (bs.drop 6))
        rwa [← eq_encodeFrame_of_validate hv, List.cons_append, List.take_append_drop] at hrest
    · exact skip b bs hb (stream_induct short skip frame reject bs)
  termination_by bs => bs.length

@[simp] theorem positioned_quiet_append (n k : Nat) (es : List Event) :
    positioned n (List.replicate k Event.quiet ++ es) = positioned (n + k) es := by
  induction k generalizing n with
  | zero => rfl
  | succ k ih => rw [List.replicate_succ, List.cons_append, positioned, ih, Nat.add_right_comm, Nat.add_assoc]

@[simp] theorem positioned_quiet (n k : Nat) : positioned n (List.replicate k Event.quiet) = [] := by
  simpa [positioned] using positioned_quiet_append n k []

/-! ### Whole stream -/

theorem nextStart_of_skip {B rest : List Byte} {s : Nat} {b : Byte} (hb : b ≠ START) (h : B.drop s = b :: rest) :
    nextStart B s = nextStart B (s + 1) := by
  have hrest : B.drop (s + 1) = rest := by rw [← List.drop_drop, h]; rfl
  simp [nextStart, h, hrest, List.findIdx?_cons, hb, Function.comp_def, Nat.add_assoc, Nat.add_comm 1]

theorem le_of_nextStart {B : List Byte} {s q : Nat} (h : nextStart B s = some q) : s ≤ q := by
  simp only [nextStart, Option.map_eq_some_iff] at h
  obtain ⟨k, -, rfl⟩ := h
  exact Nat.le_add_right s k

theorem wholeStreamFrom_short {B : List Byte} {s : Nat} (h : (B.drop s).length ≤ 6) (fuel : Nat) :
    wholeStreamFrom B fuel s = [] := by
  cases fuel with
  | zero => rfl
  | succ fuel =>
    rw [wholeStreamFrom]
    cases hq : nextStart B s with
    | none => rfl
    | some q =>
      have hle := le_of_nextStart hq
      rw [List.length_drop] at h
      exact if_pos (by omega)

theorem wholeStreamFrom_skip {B rest : List Byte} {s : Nat} {b : Byte} (hb : b ≠ START) (h : B.drop s = b :: rest)
    (fuel : Nat) : wholeStreamFrom B fuel s = wholeStreamFrom B fuel (s + 1) := by
  cases fuel with
  | zero => rfl
  | succ fuel => rw [wholeStreamFrom, wholeStreamFrom, nextStart_of_skip hb h]

/-- What the form sees of a window that stands at its scan origin. -/
theorem window_at {B tail rest : List Byte} {s : Nat} (hlen : tail.length = 6)
    (h : B.drop s = START :: (tail ++ rest)) :
    nextStart B s = some s ∧ ¬(s + 6 ≥ B.length) ∧ (B.drop s).take 7 = START :: tail := by
  refine ⟨by simp [nextStart, h, List.findIdx?_cons], ?_, by rw [h, List.take_succ_cons, List.take_left' hlen]⟩
  have hdrop := congrArg List.length h
  simp only [List.length_drop, List.length_cons, List.length_append] at hdrop
  omega

theorem wholeStreamFrom_reject {B tail rest : List Byte} {s : Nat} (hlen : tail.length = 6)
    (hv : validate (START :: tail) = none) (h : B.drop s = START :: (tail ++ rest)) (fuel : Nat) :
    wholeStreamFrom B (fuel + 1) s = (s + 6, .discard) :: wholeStreamFrom B fuel (s + 1) := by
  obtain ⟨hstart, hlong, hwindow⟩ := window_at hlen h
  simp only [wholeStreamFrom, hstart, if_neg hlong, hwindow, hv]

theorem wholeStreamFrom_frame {B rest : List Byte} {s : Nat} {r : Reading} (h : B.drop s = encodeFrame r.a1 r.a2 ++ rest)
    (fuel : Nat) : wholeStreamFrom B (fuel + 1) s = (s + 6, .emit r) :: wholeStreamFrom B fuel (s + 7) := by
  obtain ⟨hstart, hlong, hwindow⟩ := window_at (tail := (encodeFrame r.a1 r.a2).tail) rfl h
  have hv : validate (START :: (encodeFrame r.a1 r.a2).tail) = some r := validate_encodeFrame r.a1 r.a2
  simp only [wholeStreamFrom, hstart, if_neg hlong, hwindow, hv]

/-- The two forms agree from every scan origin `s`, as far as the fuel covers the bytes behind it. -/
theorem positioned_runFramer_eq {B bs : List Byte} {s fuel : Nat} (hdrop : B.drop s = bs) (hfuel : bs.length < fuel) :
    positioned s (runFramer Framer.idle bs).2 = wholeStreamFrom B fuel s := by
  induction bs using stream_induct generalizing s fuel with
  | short bs hlen => rw [wholeStreamFrom_short (hdrop ▸ hlen), runFramer_short hlen, positioned_quiet]
  | skip b bs hb ih =>
    rw [wholeStreamFrom_skip hb hdrop, runFramer_idle_skip hb, positioned]
    exact ih (by rw [← List.drop_drop, hdrop]; rfl) (Nat.lt_of_succ_lt hfuel)
  | frame r rest ih =>
    obtain _ | fuel := fuel
    · cases hfuel
    have hrest : rest.length < fuel := by
      rw [List.length_append] at hfuel
      exact Nat.lt_of_add_lt_add_left (Nat.lt_of_lt_of_le hfuel (by simp))
    rw [wholeStreamFrom_frame hdrop, runFramer_idle_frame, positioned_quiet_append, positioned,
      ih (s := s + 6 + 1) (by rw [Nat.add_assoc, ← List.drop_drop, hdrop]; rfl) hrest]
  | reject tail rest hlen hv ih =>
    obtain _ | fuel := fuel
    · cases hfuel
    obtain ⟨later, hlater, hrun⟩ := runFramer_idle_reject hlen hv (rest := rest) rfl
    rw [wholeStreamFrom_reject hlen hv hdrop, hrun, positioned_quiet_append, positioned,
      ← ih (s := s + 1) (by rw [← List.drop_drop, hdrop]; rfl) (Nat.lt_of_succ_lt_succ hfuel), hlater,
      positioned_quiet_append, Nat.add_right_comm]

/-! ### Windows emitted in a stream -/

theorem runFramer_length (f : Framer) (bs : List Byte) : (runFramer f bs).2.length = bs.length := by
  induction bs generalizing f with
  | nil => rfl
  | cons b bs ih => rw [runFramer_cons, List.length_cons, ih, List.length_cons]

theorem mem_positioned_cons {m n : Nat} {e : Event} {es : List Event} {r : Reading} :
    (m, Event.emit r) ∈ positioned n (e :: es) ↔ m = n ∧ e = .emit r ∨ (m, Event.emit r) ∈ positioned (n + 1) es := by
  cases e <;> simp [positioned, eq_comm]

/-- The emits of a list of events are where it says. -/
theorem mem_positioned_iff {m n : Nat} {es : List Event} {r : Reading} :
    (m, Event.emit r) ∈ positioned n es ↔ ∃ p, m = n + p ∧ es[p]? = some (.emit r) := by
  induction es generalizing n with
  | nil => simp [positioned]
  | cons e es ih =>
    rw [mem_positioned_cons, ih]
    refine Iff.trans ?_ Nat.or_exists_add_one
    simp [Nat.add_assoc, Nat.add_comm 1]

/-- The window that begins at byte `q` of a stream is emitted, in the step of its seventh byte. -/
def EmittedAt (bs : List Byte) (q : Nat) (r : Reading) : Prop := (runFramer Framer.idle bs).2[q + 6]? = some (.emit r)

theorem mem_positioned_iff_emittedAt {bs : List Byte} {q : Nat} {r : Reading} :
    (q + 6, Event.emit r) ∈ positioned 0 (runFramer Framer.idle bs).2 ↔ EmittedAt bs q r := by
  simp [mem_positioned_iff, EmittedAt]

/-- No byte before the seventh emits (R107). -/
theorem not_emit_of_lt_six (bs : List Byte) {p : Nat} (hp : p < 6) (r : Reading) :
    (runFramer Framer.idle bs).2[p]? ≠ some (.emit r) := by
  rcases Nat.le_total bs.length 6 with hshort | hlong
  · rw [runFramer_short hshort]
    simp [List.getElem?_replicate]
  · have hsix : (bs.take 6).length = 6 := List.length_take_of_le hlong
    rw [← List.take_append_drop 6 bs, runFramer_idle_append hsix.le, hsix,
      List.getElem?_append_left (by simpa using hp), List.getElem?_replicate, if_pos hp]
    simp

/-- The first byte of a stream is passed over: no window that begins with it is emitted, and the others are those of the rest. -/
structure PassesOver (b : Byte) (bs : List Byte) : Prop where
  zero : ∀ r, ¬EmittedAt (b :: bs) 0 r
  succ : ∀ q r, EmittedAt (b :: bs) (q + 1) r ↔ EmittedAt bs q r

theorem passesOver_skip {b : Byte} (hb : b ≠ START) (bs : List Byte) : PassesOver b bs where
  zero r := by
    rw [EmittedAt, runFramer_idle_skip hb]
    exact not_emit_of_lt_six bs (p := 5) (by decide) r
  succ q r := by
    rw [EmittedAt, EmittedAt, runFramer_idle_skip hb]
    rfl

theorem passesOver_reject {tail : List Byte} (h : tail.length = 6) (hv : validate (START :: tail) = none)
    (rest : List Byte) : PassesOver START (tail ++ rest) := by
  obtain ⟨later, hlater, hrun⟩ := runFramer_idle_reject h hv (rest := rest) rfl
  constructor
  · intro r
    simp [EmittedAt, hrun]
  · intro q r
    simp [EmittedAt, hrun, hlater]

theorem emittedAt_frame_zero (r : Reading) (rest : List Byte) (r' : Reading) :
    EmittedAt (encodeFrame r.a1 r.a2 ++ rest) 0 r' ↔ r = r' := by
  simp [EmittedAt, runFramer_idle_frame]

theorem emittedAt_frame_succ (r : Reading) (rest : List Byte) (p : Nat) (r' : Reading) :
    EmittedAt (encodeFrame r.a1 r.a2 ++ rest) (p + 1) r' ↔ (runFramer Framer.idle rest).2[p]? = some (.emit r') := by
  simp [EmittedAt, runFramer_idle_frame]

/-- No window that begins within an emitted frame is emitted (R111). -/
theorem not_emittedAt_frame (r : Reading) (rest : List Byte) {q : Nat} (hpos : 0 < q) (hlt : q < 7) (r' : Reading) :
    ¬EmittedAt (encodeFrame r.a1 r.a2 ++ rest) q r' := by
  obtain ⟨p, rfl⟩ := Nat.exists_eq_succ_of_ne_zero hpos.ne'
  rw [emittedAt_frame_succ]
  exact not_emit_of_lt_six rest (Nat.lt_of_succ_lt_succ hlt) r'

theorem emittedAt_frame_add_seven (r : Reading) (rest : List Byte) (q : Nat) (r' : Reading) :
    EmittedAt (encodeFrame r.a1 r.a2 ++ rest) (q + 7) r' ↔ EmittedAt rest q r' :=
  emittedAt_frame_succ r rest (q + 6) r'

theorem drop_frame_add_seven (r : Reading) (rest : List Byte) (q : Nat) :
    (encodeFrame r.a1 r.a2 ++ rest).drop (q + 7) = rest.drop q := by
  rw [Nat.add_comm, ← List.drop_drop, List.drop_left' (encodeFrame_length r.a1 r.a2)]

theorem PassesOver.drop_eq {b : Byte} {bs window : List Byte} {r : Reading} (h : PassesOver b bs)
    (ih : ∀ {q}, EmittedAt bs q r → ∃ rest, bs.drop q = window ++ rest) {q : Nat} (he : EmittedAt (b :: bs) q r) :
    ∃ rest, (b :: bs).drop q = window ++ rest := by
  obtain _ | q := q
  · exact absurd he (h.zero r)
  · exact ih ((h.succ q r).mp he)

/-- An emitted window is the frame of its Reading (R94, R104). -/
theorem frame_of_emittedAt {bs : List Byte} {q : Nat} {r : Reading} :
    EmittedAt bs q r → ∃ rest, bs.drop q = encodeFrame r.a1 r.a2 ++ rest := by
  induction bs using stream_induct generalizing q with
  | short bs hlen =>
    intro h
    rw [EmittedAt, List.getElem?_eq_none (by rw [runFramer_length]; omega)] at h
    cases h
  | skip b bs hb ih => exact (passesOver_skip hb bs).drop_eq ih
  | frame r' rest ih =>
    intro h
    rcases Nat.eq_zero_or_pos q with rfl | hpos
    · obtain rfl := (emittedAt_frame_zero r' rest r).mp h
      exact ⟨rest, rfl⟩
    · have hseven : 7 ≤ q := Nat.not_lt.mp fun hlt => not_emittedAt_frame r' rest hpos hlt r h
      obtain ⟨p, rfl⟩ := Nat.exists_eq_add_of_le' hseven
      rw [drop_frame_add_seven]
      exact ih ((emittedAt_frame_add_seven r' rest p r).mp h)
  | reject tail rest hlen hv ih => exact (passesOver_reject hlen hv rest).drop_eq ih

/-- A window that begins at one of the six bytes before `q`, and so overlaps the one at `q`, is emitted. -/
def Overlapped (bs : List Byte) (q : Nat) : Prop := ∃ p r, p < q ∧ q ≤ p + 6 ∧ EmittedAt bs p r

theorem PassesOver.overlapped_succ {b : Byte} {bs : List Byte} (h : PassesOver b bs) (q : Nat) :
    Overlapped (b :: bs) (q + 1) ↔ Overlapped bs q := by
  constructor
  · rintro ⟨_ | p, r, hlt, hle, hemit⟩
    · exact absurd hemit (h.zero r)
    · exact ⟨p, r, Nat.lt_of_succ_lt_succ hlt, by omega, (h.succ p r).mp hemit⟩
  · rintro ⟨p, r, hlt, hle, hemit⟩
    exact ⟨p + 1, r, Nat.succ_lt_succ hlt, by omega, (h.succ p r).mpr hemit⟩

theorem overlapped_frame (r : Reading) (rest : List Byte) {q : Nat} (hpos : 0 < q) (hlt : q < 7) :
    Overlapped (encodeFrame r.a1 r.a2 ++ rest) q :=
  ⟨0, r, hpos, by omega, (emittedAt_frame_zero r rest r).mpr rfl⟩

theorem overlapped_frame_add_seven (r : Reading) (rest : List Byte) (q : Nat) :
    Overlapped (encodeFrame r.a1 r.a2 ++ rest) (q + 7) ↔ Overlapped rest q := by
  constructor
  · rintro ⟨p, r', hlt, hle, hemit⟩
    have hseven : 7 ≤ p := Nat.not_lt.mp fun hp => not_emittedAt_frame r rest (by omega) hp r' hemit
    obtain ⟨p, rfl⟩ := Nat.exists_eq_add_of_le' hseven
    exact ⟨p, r', by omega, by omega, (emittedAt_frame_add_seven r rest p r').mp hemit⟩
  · rintro ⟨p, r', hlt, hle, hemit⟩
    exact ⟨p + 7, r', by omega, by omega, (emittedAt_frame_add_seven r rest p r').mpr hemit⟩

theorem emittedAt_zero_iff {bs rest : List Byte} {r : Reading} (h : bs.drop 0 = encodeFrame r.a1 r.a2 ++ rest) :
    EmittedAt bs 0 r ↔ ¬Overlapped bs 0 := by
  rw [List.drop_zero] at h
  subst h
  exact iff_of_true ((emittedAt_frame_zero r rest r).mpr rfl) fun ⟨_, _, hlt, _⟩ => Nat.not_lt_zero _ hlt

/-- The exact condition of R112, carried from the stream behind a byte that is passed over. -/
theorem PassesOver.emittedAt_iff {b : Byte} {bs : List Byte} (hpass : PassesOver b bs) {rest : List Byte} {r : Reading}
    (ih : ∀ {q}, bs.drop q = encodeFrame r.a1 r.a2 ++ rest → (EmittedAt bs q r ↔ ¬Overlapped bs q)) {q : Nat}
    (h : (b :: bs).drop q = encodeFrame r.a1 r.a2 ++ rest) : EmittedAt (b :: bs) q r ↔ ¬Overlapped (b :: bs) q := by
  obtain _ | q := q
  · exact emittedAt_zero_iff h
  · rw [hpass.succ, hpass.overlapped_succ, ih h]

/-- The exact condition of R112: either the first byte is passed over, or the stream begins with a frame that is emitted and
overlaps the one at `q` or ends before it. -/
theorem emittedAt_iff_not_overlapped {bs rest : List Byte} {q : Nat} {r : Reading}
    (h : bs.drop q = encodeFrame r.a1 r.a2 ++ rest) : EmittedAt bs q r ↔ ¬Overlapped bs q := by
  induction bs using stream_induct generalizing q with
  | short bs hlen =>
    have hdrop := congrArg List.length h
    simp only [List.length_drop, List.length_append, encodeFrame_length] at hdrop
    omega
  | skip b bs hb ih => exact (passesOver_skip hb bs).emittedAt_iff ih h
  | reject tail rest hlen hv ih => exact (passesOver_reject hlen hv rest).emittedAt_iff ih h
  | frame r' later ih =>
    rcases Nat.eq_zero_or_pos q with rfl | hpos
    · exact emittedAt_zero_iff h
    rcases Nat.lt_or_ge q 7 with hlt | hseven
    · exact iff_of_false (not_emittedAt_frame r' later hpos hlt r) (not_not.mpr (overlapped_frame r' later hpos hlt))
    · obtain ⟨p, rfl⟩ := Nat.exists_eq_add_of_le' hseven
      rw [drop_frame_add_seven] at h
      rw [emittedAt_frame_add_seven, overlapped_frame_add_seven, ih h]

/-! ### A run that ends with an emit -/

/-- A run whose last event is an emit ends idle (R104). -/
theorem runFramer_of_last_emit {f : Framer} {bs : List Byte} {r : Reading}
    (h : (runFramer f bs).2.getLast? = some (.emit r)) : ∃ es, runFramer f bs = (Framer.idle, es ++ [.emit r]) := by
  obtain rfl | ⟨bs, b, rfl⟩ := List.eq_nil_or_concat' bs
  · cases h
  rw [runFramer_append] at h ⊢
  have hevent : (framerStep (runFramer f bs).1 b).2 = .emit r := by simpa using h
  obtain ⟨-, -, hidle⟩ := framerStep_eq_emit hevent
  exact ⟨(runFramer f bs).2, by simp [hevent, hidle]⟩

theorem last_event_of_emittedAt {bs : List Byte} {q : Nat} {r : Reading} (hlen : bs.length = q + 7)
    (h : EmittedAt bs q r) : (runFramer Framer.idle bs).2.getLast? = some (.emit r) := by
  rw [List.getLast?_eq_getElem?, runFramer_length, hlen]
  exact h

end Sys2Proof.Machine

open Sys2Proof Sys2Proof.Machine in
/-- Settles O11: each form by the recursion on the bytes, the bound because the START found is not kept. -/
theorem reseekFormsAgree : Obligations.ReseekFormsAgree :=
  fun bs => ⟨seek_eq_seekByIndex bs, seek_eq_replay bs, framerOk_seek⟩

open Sys2Proof Sys2Proof.Machine in
/-- Settles O12: the register with no fresh byte simulates the idle framer, and the simulation is kept byte by byte with the same
event. -/
theorem slidingWindowGivesTheSameEvents : Obligations.SlidingWindowGivesTheSameEvents := by
  intro sr B hlen
  have hcand : Sliding.candidates ⟨sr, 0⟩ = [] := List.drop_of_length_le hlen.le
  exact runSliding_eq ⟨hlen, by rw [hcand]; rfl⟩ B

open Sys2Proof Sys2Proof.Machine in
/-- Settles O13: the agreement from scan origin 0, with one more fuel than bytes. -/
theorem wholeStreamGivesTheSameEvents : Obligations.WholeStreamGivesTheSameEvents :=
  fun B => positioned_runFramer_eq (s := 0) rfl (Nat.lt_succ_self B.length)

open Sys2Proof Sys2Proof.Machine in
/-- Settles O21: `emittedAt_iff_not_overlapped`, said with the positions of the emits. -/
theorem frameIsLostOnlyToAnEmittedWindow : Obligations.FrameIsLostOnlyToAnEmittedWindow := by
  intro before after a1 a2
  simp only [mem_positioned_iff_emittedAt]
  exact emittedAt_iff_not_overlapped (r := ⟨a1, a2⟩) (rest := after) (by simp)

open Sys2Proof Sys2Proof.Machine in
/-- Settles O20: a window that overlapped the frame would be emitted only if it were a frame itself, which the premise rules out;
so the frame is emitted, in the last step. -/
theorem nextSoundFrameIsFound : Obligations.NextSoundFrameIsFound := by
  intro noise a1 a2 s hidle hrejected
  have hfree : ¬Overlapped (noise ++ encodeFrame a1 a2) noise.length := by
    rintro ⟨q, r, hlt, hle, hemit⟩
    obtain ⟨rest, hframe⟩ := frame_of_emittedAt hemit
    have hnone := hrejected q hlt hle
    rw [hframe, List.take_left' (encodeFrame_length r.a1 r.a2), validate_encodeFrame] at hnone
    cases hnone
  have hemit : EmittedAt (noise ++ encodeFrame a1 a2) noise.length ⟨a1, a2⟩ :=
    (emittedAt_iff_not_overlapped (rest := []) (by simp)).mpr hfree
  obtain ⟨es, hrun⟩ := runFramer_of_last_emit (last_event_of_emittedAt (by simp) hemit)
  exact ⟨_, exec_rxs_of_idle hidle hrun, rfl, by simp [State.receive, emittedReadings_append, emittedReadings],
    by simp [State.receive, eventOut]⟩

namespace Sys2Proof.Machine

/-! ## Lines of the trace read back (R61) -/

/-! ### Numbers -/

/-- A byte is written as the two digits of its value. -/
theorem writeU8_eq_digits (b : Byte) :
    ∃ h l, h < 16 ∧ l < 16 ∧ 16 * h + l = b.toNat ∧ writeU8 b = [digitChar h, digitChar l] := by
  refine ⟨_, _, (b.extractLsb' 4 4).isLt, (b.extractLsb' 0 4).isLt, ?_, rfl⟩
  have hlt := b.isLt
  simp only [BitVec.extractLsb'_toNat, Nat.shiftRight_eq_div_pow]
  omega

theorem toNat_eq_bytes (a : Angle) : 256 * (hi8 a).toNat + (lo8 a).toNat = a.toNat := by
  have hhi : (hi8 a).toNat = a.toNat / 256 := by
    simp only [hi8, BitVec.extractLsb'_toNat, Nat.shiftRight_eq_div_pow]
    exact Nat.mod_eq_of_lt (Nat.div_lt_of_lt_mul a.isLt)
  have hlo : (lo8 a).toNat = a.toNat % 256 := by
    simp only [lo8, BitVec.extractLsb'_toNat, Nat.shiftRight_zero, Nat.reducePow]
  rw [hhi, hlo, Nat.div_add_mod]

/-- Two digits read as the byte they stand for. -/
theorem readU8_digits {h l : Nat} (hh : h < 16) (hl : l < 16) :
    readU8 [digitChar h, digitChar l] = some (BitVec.ofNat 8 (16 * h + l)) := by
  have hall : ∀ h < 16, ∀ l < 16, readU8 [digitChar h, digitChar l] = some (BitVec.ofNat 8 (16 * h + l)) := by decide
  exact hall h hh l hl

/-- A byte written in hexadecimal reads back. -/
theorem readU8_writeU8 (b : Byte) : readU8 (writeU8 b) = some b := by
  obtain ⟨h, l, hh, hl, hvalue, hdigits⟩ := writeU8_eq_digits b
  rw [hdigits, readU8_digits hh hl, hvalue, BitVec.ofNat_toNat, BitVec.setWidth_eq]

/-- Four characters behind `0x` are read in base 16. -/
theorem readU16_hex (a b c d : Char) :
    readU16 ['0', 'x', a, b, c, d] = (readNumber 16 [a, b, c, d]).map (BitVec.ofNat 16) := rfl

/-- An angle written as `0x` and four digits reads back. -/
theorem readU16_writeU16 (a : Angle) : readU16 (writeU16 a) = some a := by
  obtain ⟨h, l, hh, hl, hhi, hhiDigits⟩ := writeU8_eq_digits (hi8 a)
  obtain ⟨h', l', hh', hl', hlo, hloDigits⟩ := writeU8_eq_digits (lo8 a)
  have hvalue : 16 * (16 * (16 * h + l) + h') + l' = a.toNat := by
    rw [← toNat_eq_bytes a, ← hhi, ← hlo]
    omega
  have hnumber : readNumber 16 [digitChar h, digitChar l, digitChar h', digitChar l'] = some a.toNat := by
    simp [readNumber, digitValue_digitChar, hh, hl, hh', hl', hvalue]
  have hwritten : writeU16 a = ['0', 'x', digitChar h, digitChar l, digitChar h', digitChar l'] := by
    rw [writeU16, hhiDigits, hloDigits]
    rfl
  rw [hwritten, readU16_hex, hnumber, Option.map_some, BitVec.ofNat_toNat, BitVec.setWidth_eq]

/-! ### Words -/

/-- A character that no word ends at. -/
def IsWordChar (c : Char) : Prop := c ≠ ';' ∧ c ≠ ' ' ∧ c ≠ ','

theorem isWordChar_digitChar {d : Nat} (h : d < 16) : IsWordChar (digitChar d) := by
  have hall : ∀ d < 16, digitChar d ≠ ';' ∧ digitChar d ≠ ' ' ∧ digitChar d ≠ ',' := by decide
  exact hall d h

theorem isWordChar_writeU8 (b : Byte) : ∀ c ∈ writeU8 b, IsWordChar c := by
  obtain ⟨h, l, hh, hl, -, hdigits⟩ := writeU8_eq_digits b
  simp [hdigits, isWordChar_digitChar hh, isWordChar_digitChar hl]

theorem isWordChar_writeU16 (a : Angle) : ∀ c ∈ writeU16 a, IsWordChar c := by
  have hzero : IsWordChar '0' := by simp [IsWordChar]
  have hx : IsWordChar 'x' := by simp [IsWordChar]
  simpa [writeU16, hzero, hx, or_imp, forall_and] using ⟨isWordChar_writeU8 (hi8 a), isWordChar_writeU8 (lo8 a)⟩

/-- The characters of a word are gathered. -/
theorem lineWords_append {w : List Char} (h : ∀ c ∈ w, IsWordChar c) (cur rest : List Char) :
    lineWords cur (w ++ rest) = lineWords (cur ++ w) rest := by
  induction w generalizing cur with
  | nil => rw [List.nil_append, List.append_nil]
  | cons c w ih =>
    rw [List.forall_mem_cons] at h
    obtain ⟨⟨hsemi, hspace, hcomma⟩, hw⟩ := h
    simp [lineWords, hsemi, hspace, hcomma, ih hw]

theorem lineWords_end {cur : List Char} (h : cur ≠ []) : lineWords cur [] = [cur] := by simp [lineWords, h]

theorem lineWords_space {cur : List Char} (h : cur ≠ []) (rest : List Char) :
    lineWords cur (' ' :: rest) = cur :: lineWords [] rest := by simp [lineWords, h]

theorem lineWords_comma {cur : List Char} (h : cur ≠ []) (rest : List Char) :
    lineWords cur (',' :: ' ' :: rest) = cur :: lineWords [] rest := by simp [lineWords, h]

/-- Written bytes are words of their own. -/
theorem lineWords_writeBytes {cur : List Char} (h : cur ≠ []) (bs : List Byte) :
    lineWords cur (writeBytes bs) = cur :: bs.map writeU8 := by
  induction bs generalizing cur with
  | nil => exact lineWords_end h
  | cons b bs ih =>
    have hnonempty : writeU8 b ≠ [] := List.cons_ne_nil _ _
    rw [writeBytes, List.cons_append, lineWords_space h, lineWords_append (isWordChar_writeU8 b), List.nil_append,
      ih hnonempty, List.map_cons]

/-- Written operands are two words. -/
theorem lineWords_writePair {cur : List Char} (h : cur ≠ []) (a1 a2 : Angle) :
    lineWords cur (writePair a1 a2) = [cur, writeU16 a1, writeU16 a2] := by
  have hnonempty (a : Angle) : writeU16 a ≠ [] := List.cons_ne_nil _ _
  have hlast := lineWords_append (isWordChar_writeU16 a2) [] []
  rw [List.append_nil, List.nil_append, lineWords_end (hnonempty a2)] at hlast
  rw [writePair, List.cons_append, lineWords_space h, lineWords_append (isWordChar_writeU16 a1), List.nil_append,
    lineWords_comma (hnonempty a1), hlast]

/-- The name of an operation is a word: its characters are gathered first. -/
theorem lineWords_name {name : List Char} (h : ∀ c ∈ name, IsWordChar c) (rest : List Char) :
    lineWords [] (name ++ rest) = lineWords name rest := by
  rw [lineWords_append h, List.nil_append]

/-! ### Operands -/

theorem readBytes_map_writeU8 (bs : List Byte) : readBytes (bs.map writeU8) = some bs := by
  induction bs with
  | nil => rfl
  | cons b bs ih => simp [readBytes, readU8_writeU8, ih]

theorem readPair_writeU16 (mk : Angle → Angle → Instr) (a1 a2 : Angle) :
    readPair mk [writeU16 a1, writeU16 a2] = some (mk a1 a2) := by
  simp [readPair, readU16_writeU16]

theorem readWindow_map_writeU8 (mk : Byte → Byte → Byte → Byte → Byte → Byte → Byte → Instr)
    (w0 w1 w2 w3 w4 w5 w6 : Byte) :
    readWindow mk ([w0, w1, w2, w3, w4, w5, w6].map writeU8) = some (mk w0 w1 w2 w3 w4 w5 w6) := by
  rw [readWindow, readBytes_map_writeU8]

theorem readOneByte_map_writeU8 (b : Byte) : readOneByte ([b].map writeU8) = some (.rxb b) := by
  rw [readOneByte, readBytes_map_writeU8]

theorem readBurst_map_writeU8 (b : Byte) (bs : List Byte) :
    readBurst ((b :: bs).map writeU8) = some (.rxs (b :: bs)) := by
  rw [readBurst, readBytes_map_writeU8]

/-- The words of a line that a name and written bytes make. -/
theorem lineWords_name_bytes {name : List Char} (h : ∀ c ∈ name, IsWordChar c) (hne : name ≠ []) (bs : List Byte) :
    lineWords [] (name ++ writeBytes bs) = name :: bs.map writeU8 := by
  rw [lineWords_name h, lineWords_writeBytes hne]

/-- The words of a line that a name and two written angles make. -/
theorem lineWords_name_pair {name : List Char} (h : ∀ c ∈ name, IsWordChar c) (hne : name ≠ []) (a1 a2 : Angle) :
    lineWords [] (name ++ writePair a1 a2) = [name, writeU16 a1, writeU16 a2] := by
  rw [lineWords_name h, lineWords_writePair hne]

end Sys2Proof.Machine

open Sys2Proof Sys2Proof.Machine in
/-- Settles O35: a written line is its name and its operands as words, and each operand reads back. -/
theorem traceLineRoundTrip : Obligations.TraceLineRoundTrip := by
  intro i line hwf hline
  cases i with
  | frame w => cases hline
  | rst | nop => cases hline; decide
  | chk a1 a2 | enc a1 a2 | loop a1 a2 =>
    cases hline
    rw [readLine, lineWords_name_pair (by simp [IsWordChar]) (List.cons_ne_nil _ _)]
    exact readPair_writeU16 _ a1 a2
  | val w0 w1 w2 w3 w4 w5 w6 | dec w0 w1 w2 w3 w4 w5 w6 =>
    cases hline
    rw [readLine, lineWords_name_bytes (by simp [IsWordChar]) (List.cons_ne_nil _ _)]
    exact readWindow_map_writeU8 _ w0 w1 w2 w3 w4 w5 w6
  | rxb b =>
    cases hline
    rw [readLine, lineWords_name_bytes (by simp [IsWordChar]) (List.cons_ne_nil _ _)]
    exact readOneByte_map_writeU8 b
  | rxs bs =>
    cases hline
    rw [readLine, lineWords_name_bytes (by simp [IsWordChar]) (List.cons_ne_nil _ _)]
    obtain _ | ⟨b, bs⟩ := bs
    · cases hwf
    · exact readBurst_map_writeU8 b bs
